-- ==== Sys2Proof/Word.lean ====
section
/-! DEFINITION. The octet, octet sequences, and the words that reach the engine's two input ports: octets on
the wire and commands on the host port. -/

namespace Sys2Proof

/-- An octet: an 8-bit unsigned value, bit 7 the most significant (00_scope.md R10). -/
abbrev Octet := BitVec 8

/-- An octet sequence, index 0 first (00_scope.md R10, 20_memory.md R64). -/
abbrev Octets := List Octet

/-- A typed operand on the command port (30_encoding.md R97: "an enumerated value with typed operands").
DESIGN CHOICE, notes/assumptions/10.md (unsafe): no binary layout of operands exists in the spec. -/
inductive Operand where
  /-- A natural number, an enumerated value by its suggested code, or a bit. -/
  | num (n : Nat)
  /-- An octet sequence. -/
  | octets (bs : Octets)
  deriving DecidableEq, Repr

/-- What one input word is: a run of octets on the wire, or a command on the host port with its 3-bit code
(30_encoding.md R97, R101) and its operands in the order R97 lists them. -/
inductive Words where
  | wire (bs : Octets)
  | command (code : BitVec 3) (operands : List Operand)
  deriving DecidableEq, Repr

end Sys2Proof
end

