-- ==== Sys2Proof/Config.lean ====
section
/-! DEFINITION. The constants the spec settles, the parameters it leaves open, the well-formedness of a
parameter set, and the one free value of the model. -/

namespace Sys2Proof

/-- The connection role (10_state.md R22). -/
inductive Role where
  | initiator
  | responder
  deriving DecidableEq, Repr

/-- The kind of the frame whose control octet was matched, `RX_KIND` (10_state.md R35). -/
inductive FrameKind where
  | ctrl
  | info
  deriving DecidableEq, Repr

/-- The channel adapter's answer to an open, a write or a close (00_scope.md R11, 60_exceptions.md R281). -/
inductive Answer where
  | ok
  | error
  deriving DecidableEq, Repr, Inhabited

namespace Config

/-- `FLAG`, the frame delimiter (00_scope.md R6). -/
def FLAG : Octet := 0x7E

/-- `ESC`, the escape octet (00_scope.md R6). -/
def ESC : Octet := 0x7D

/-- `STUFF_MASK`, the mask of byte stuffing (00_scope.md R6). -/
def STUFF_MASK : Octet := 0x20

/-- `A_TX`, the address of every exchange the initiator starts (00_scope.md R6, 30_encoding.md R92). -/
def A_TX : Octet := 0x03

/-- `C_SET`, the connect request (00_scope.md R6). -/
def C_SET : Octet := 0x03

/-- `C_UA`, the connect confirm and final acknowledgement (00_scope.md R6). -/
def C_UA : Octet := 0x07

/-- `C_I0`, the information frame with sequence bit 0 (00_scope.md R6). -/
def C_I0 : Octet := 0x00

/-- FREE VALUE: the adapter's answer to ask number `n` when the environment's list of answers is used up.
Nothing constrains it (00_scope.md R11: "the environment answers `ok` or `error`"). notes/assumptions/4.md. -/
opaque channelAnswer : Nat → Answer

end Config

/-- The values of the state elements that 10_state.md R47 marks *unspecified* after `Reset`, supplied as
parameters of the initial state (70_reset_and_hazards.md R301). notes/assumptions/3.md. -/
structure PowerOn where
  role : Role
  maxRetx : Nat
  timeoutS : Nat
  rxA : Octet
  rxC : Octet
  rxKind : FrameKind
  txbuf : Octets
  acc : Octets
  report : Bool
  deriving DecidableEq, Repr

/-- The parameters of the model (00_scope.md R7, R8): control octets and second address the source gives no
value for, the sizes, and the unspecified reset values. No step writes them. notes/assumptions/1.md, 2.md. -/
structure Params where
  cI1 : Octet
  cRR0 : Octet
  cRR1 : Octet
  cREJ0 : Octet
  cREJ1 : Octet
  cDISC : Octet
  aRX : Octet
  maxPayload : Nat
  /-- `STAT_W`: the width of a statistics counter, `none` for unbounded (10_state.md R44). -/
  statW : Option Nat
  powerOn : PowerOn
  deriving DecidableEq, Repr

namespace Params

/-- DESIGN CHOICE (unsafe), notes/assumptions/3.md: the values of the reset state's unspecified elements. -/
def defaultPowerOn : PowerOn :=
  { role := .initiator, maxRetx := 0, timeoutS := 0, rxA := 0, rxC := 0, rxKind := .ctrl,
    txbuf := [], acc := [], report := false }

/-- PRESUMED (unsafe), notes/assumptions/1.md: the defaults 00_scope.md R7 offers from general knowledge of
the protocol family. DESIGN CHOICE (unsafe), notes/assumptions/2.md: `MAX_PAYLOAD` 8, unbounded counters. -/
def default : Params :=
  { cI1 := 0x40, cRR0 := 0x05, cRR1 := 0x85, cREJ0 := 0x01, cREJ1 := 0x81, cDISC := 0x0B, aRX := 0x01,
    maxPayload := 8, statW := none, powerOn := defaultPowerOn }

/-- `ACC_CAP = MAX_PAYLOAD + 1` (00_scope.md R8). -/
def accCap (p : Params) : Nat := p.maxPayload + 1

/-- `TX_CAP`, `2*MAX_PAYLOAD + 7`, or 6 when no payload octet fits (00_scope.md R8). -/
def txCap (p : Params) : Nat := if p.maxPayload = 0 then 6 else 2 * p.maxPayload + 7

/-- The seven control codes of control frames (00_scope.md R9 (a)). -/
def controlCodes (p : Params) : Octets :=
  [Config.C_SET, Config.C_UA, p.cDISC, p.cRR0, p.cRR1, p.cREJ0, p.cREJ1]

/-- Every (address, control) pair the engine ever sends or accepts (30_encoding.md R92). -/
def pairs (p : Params) : List (Octet × Octet) :=
  [(Config.A_TX, Config.C_SET), (Config.A_TX, Config.C_UA), (Config.A_TX, Config.C_I0),
   (Config.A_TX, p.cI1), (Config.A_TX, p.cRR0), (Config.A_TX, p.cRR1), (Config.A_TX, p.cREJ0),
   (Config.A_TX, p.cREJ1), (Config.A_TX, p.cDISC), (p.aRX, p.cDISC), (p.aRX, Config.C_UA)]

/-- 00_scope.md R9 (a): the control codes that must differ. -/
abbrev codesDistinct (p : Params) : Prop :=
  p.controlCodes.Nodup ∧ Config.C_I0 ≠ p.cI1 ∧ p.cDISC ≠ Config.C_I0 ∧ p.cDISC ≠ p.cI1

/-- 00_scope.md R9 (b) and (c): no address, control code or header checksum equals `FLAG`. -/
abbrev headersAvoidFlag (p : Params) : Prop :=
  p.aRX ≠ Config.FLAG ∧ p.cI1 ≠ Config.FLAG ∧ (∀ c ∈ p.controlCodes, c ≠ Config.FLAG) ∧
    ∀ ac ∈ p.pairs, ac.1 ^^^ ac.2 ≠ Config.FLAG

/-- Well-formedness of the parameter set (00_scope.md R9). -/
abbrev wf (p : Params) : Prop := p.codesDistinct ∧ p.headersAvoidFlag

/-- The buffers' unspecified reset contents are sequences of at most the capacity (10_state.md R29, R37). -/
abbrev buffersFit (p : Params) : Prop :=
  p.powerOn.txbuf.length ≤ p.txCap ∧ p.powerOn.acc.length ≤ p.accCap

end Params

end Sys2Proof
end

