-- ==== Sys2Proof/Machine/Codec.lean ====
section
/-! DEFINITION. The Frame Codec (40_codec.md): checksum, stuffing, destuffing, frame building. Every function
is pure; none reads or writes a register (40_codec.md, introduction). -/

namespace Sys2Proof

/-- The error values of the codec functions (40_codec.md R124, R128, R129). -/
inductive CodecError where
  /-- `TruncatedEscape`: "the region ends immediately after an escape octet". -/
  | truncatedEscape
  /-- `MalformedFrame`: the region destuffs to nothing. -/
  | malformedFrame
  /-- `PayloadTooLarge`: the payload is longer than `MAX_PAYLOAD`. -/
  | payloadTooLarge
  deriving DecidableEq, Repr

/-- `bcc(s)`, the XOR-reduction of an octet sequence (R120). -/
def bcc (s : Octets) : Octet := s.foldl (· ^^^ ·) 0

/-- Whether an octet is of the stuffing alphabet (30_encoding.md R85). -/
def isReserved (b : Octet) : Bool := b == Config.FLAG || b == Config.ESC

/-- `stuffOctet(b)`, the transmitted form of one data-region octet (R122). -/
def stuffOctet (b : Octet) : Octets :=
  if isReserved b then [Config.ESC, b ^^^ Config.STUFF_MASK] else [b]

/-- `stuff(s)`, the stuffing of a region (R123). -/
def stuff : Octets → Octets
  | [] => []
  | b :: t => stuffOctet b ++ stuff t

/-- The loop of `destuff`: the rest of the region, the escape pending, the octets produced (R124). -/
def destuffGo : Octets → Bool → Octets → Except CodecError Octets
  | [], false, out => .ok out
  | [], true, _ => .error .truncatedEscape
  | b :: t, true, out => destuffGo t false (out ++ [b ^^^ Config.STUFF_MASK])
  | b :: t, false, out =>
    if b = Config.ESC then destuffGo t true out else destuffGo t false (out ++ [b])

/-- `destuff(r)`, the inverse transformation on a raw region (R124). -/
def destuff (r : Octets) : Except CodecError Octets := destuffGo r false []

/-- `destuffPayload(rawRegion)`: the payload and the checksum2 octet (R129). -/
def destuffPayload (r : Octets) : Except CodecError (Octets × Octet) :=
  match destuff r with
  | .error e => .error e
  | .ok d =>
    match d.getLast? with
    | none => .error .malformedFrame
    | some chk => .ok (d.dropLast, chk)

/-- `ctrl(a, c)`, buildControlFrame (R126). -/
def ctrl (a c : Octet) : Octets := [Config.FLAG, a, c, a ^^^ c, Config.FLAG]

/-- `isControlFrame(f, a, c)`, the whole-buffer acceptance predicate (R127). -/
def isControlFrame (f : Octets) (a c : Octet) : Bool := f == ctrl a c

/-- `C_I(s)` (30_encoding.md R89); the sequence bit 0 is `false`. -/
def Params.cI (p : Params) (s : Bool) : Octet := if s then p.cI1 else Config.C_I0

/-- `C_RR(n)` (30_encoding.md R90). -/
def Params.cRR (p : Params) (n : Bool) : Octet := if n then p.cRR1 else p.cRR0

/-- `C_REJ(n)` (30_encoding.md R90). -/
def Params.cREJ (p : Params) (n : Bool) : Octet := if n then p.cREJ1 else p.cREJ0

/-- `ackCode(s) = C_RR(s ^ 1)` (30_encoding.md R91, the spec's decision D5). -/
def Params.ackCode (p : Params) (s : Bool) : Octet := p.cRR (!s)

/-- `rejCode(e) = C_REJ(e)` (30_encoding.md R91, the spec's decision D5). -/
def Params.rejCode (p : Params) (e : Bool) : Octet := p.cREJ e

/-- The stuffed data region of a payload: the payload and checksum2, both stuffed (30_encoding.md R82). -/
def dataRegion (payload : Octets) : Octets := stuff (payload ++ [bcc payload])

/-- The octets of an information frame with address `a` and control octet `c`, whatever the length of the
payload (30_encoding.md R82). -/
def infoFrame (a c : Octet) (payload : Octets) : Octets :=
  [Config.FLAG, a, c, a ^^^ c] ++ dataRegion payload ++ [Config.FLAG]

/-- `buildDataFrame(payload, sequenceBit, address)` (R128). -/
def buildDataFrame (p : Params) (payload : Octets) (s : Bool) (a : Octet) : Except CodecError Octets :=
  if p.maxPayload < payload.length then .error .payloadTooLarge else .ok (infoFrame a (p.cI s) payload)

end Sys2Proof
end

