-- ==== Sys2Proof/Syntax.lean ====
section
/-! DEFINITION. The instructions: one constructor per row of opcode_table.json. -/

namespace Sys2Proof

/-- The nine frames (30_encoding.md R88), each with its address octet (the field `a` of the table's pattern),
the two information frames with their payload too, and the five host commands (30_encoding.md R97). -/
inductive Instr where
  /-- SET, "connect request" (44_frames.md R240). -/
  | set (address : Octet)
  /-- UA, "connect confirm" and "final acknowledgement" (44_frames.md R241). -/
  | ua (address : Octet)
  /-- DISC, "disconnect" and "disconnect-echo" (44_frames.md R242). -/
  | disc (address : Octet)
  /-- RR0, "receiver ready N" with N = 0 (44_frames.md R243). -/
  | rr0 (address : Octet)
  /-- RR1, "receiver ready N" with N = 1 (44_frames.md R244). -/
  | rr1 (address : Octet)
  /-- REJ0, "reject N" with N = 0 (44_frames.md R245). -/
  | rej0 (address : Octet)
  /-- REJ1, "reject N" with N = 1 (44_frames.md R246). -/
  | rej1 (address : Octet)
  /-- I0, the information frame with sequence bit 0 (44_frames.md R247). -/
  | i0 (address : Octet) (payload : Octets)
  /-- I1, the information frame with sequence bit 1 (44_frames.md R248). -/
  | i1 (address : Octet) (payload : Octets)
  /-- OPEN (43_arq_controller.md R203, R207); `portSpecifier` and `speed` are opaque (00_scope.md R8). -/
  | open_ (role : Role) (portSpecifier : Octets) (speed maxRetransmissions timeoutSeconds : Nat)
  /-- SEND (43_arq_controller.md R210). -/
  | send (payload : Octets)
  /-- RECEIVE (43_arq_controller.md R215). -/
  | receive
  /-- CLOSE (43_arq_controller.md R220, R224). -/
  | close (reportStatistics : Bool)
  /-- STATISTICS (43_arq_controller.md R229). -/
  | statistics
  deriving DecidableEq, Repr

end Sys2Proof
end

