-- ==== Sys2Proof/WellFormed.lean ====
section
/-! DEFINITION. Well-formed instructions: the address a frame may carry and the length a payload may have. -/

namespace Sys2Proof

/-- A frame carries an (address, control) pair of 30_encoding.md R92. -/
abbrev Params.pairOk (p : Params) (address control : Octet) : Bool := (address, control) ∈ p.pairs

/-- Well-formed under parameters `p`: a frame's address and control octets are a pair of 30_encoding.md R92 and
an information frame's payload has at most `MAX_PAYLOAD` octets (R82, R95). A host command has no ill-formed
operand: a payload that is too long is answered by SEND itself (43_arq_controller.md R211). -/
def Instr.wf (p : Params) : Instr → Bool
  | .set a => p.pairOk a Config.C_SET
  | .ua a => p.pairOk a Config.C_UA
  | .disc a => p.pairOk a p.cDISC
  | .rr0 a => p.pairOk a p.cRR0
  | .rr1 a => p.pairOk a p.cRR1
  | .rej0 a => p.pairOk a p.cREJ0
  | .rej1 a => p.pairOk a p.cREJ1
  | .i0 a payload => p.pairOk a Config.C_I0 && decide (payload.length ≤ p.maxPayload)
  | .i1 a payload => p.pairOk a p.cI1 && decide (payload.length ≤ p.maxPayload)
  | .open_ _ _ _ _ _ => true
  | .send _ => true
  | .receive => true
  | .close _ => true
  | .statistics => true

end Sys2Proof
end

