-- ==== Sys2Proof/Decode.lean ====
section
/-! DEFINITION. The decoder of input words, total and rejecting by name, and after it the encoder. A word that
is no instruction is not a fault of the machine: octets that are no whole frame are noise for the receiver
(30_encoding.md R93), and Machine/Step.lean feeds them to it one by one. -/

namespace Sys2Proof

/-- Why a word is no well-formed instruction. -/
inductive Reject where
  /-- Fewer than five octets: no frame shape (30_encoding.md R80). -/
  | tooShort
  /-- The first octet is not `FLAG` (R81, R82). -/
  | noOpeningFlag
  /-- The last octet is not `FLAG` (R81, R82). -/
  | noClosingFlag
  /-- The control octet is none of its shape's (R88). -/
  | unknownControl
  /-- The fourth octet is not address XOR control (R83). -/
  | badHeaderChecksum
  /-- The address and control octets are no pair of R92, or the payload is over `MAX_PAYLOAD` (R95). -/
  | illFormed
  /-- A `FLAG` stands inside the data region: the frame ended there (R87), or an escape precedes it (R94). -/
  | flagInRegion
  /-- The data region does not destuff, or to nothing (R95; 40_codec.md R129). -/
  | badRegion (e : CodecError)
  /-- checksum2 does not match the payload (R84). -/
  | badChecksum2
  /-- The data region holds an escape no conforming transmitter sends (R94). -/
  | nonCanonicalEscape
  /-- A command code above 4 (R97). -/
  | unknownCommand
  /-- Operands that are not those R97 lists for the command. -/
  | badOperands
  deriving DecidableEq, Repr

/-- The instruction of a control octet of control class (30_encoding.md R88, R101). -/
def controlInstr (p : Params) (a c : Octet) : Option Instr :=
  if c = Config.C_SET then some (.set a)
  else if c = Config.C_UA then some (.ua a)
  else if c = p.cDISC then some (.disc a)
  else if c = p.cRR0 then some (.rr0 a)
  else if c = p.cRR1 then some (.rr1 a)
  else if c = p.cREJ0 then some (.rej0 a)
  else if c = p.cREJ1 then some (.rej1 a)
  else none

/-- The instruction of a control octet of information class (30_encoding.md R88, R101). -/
def infoInstr (p : Params) (a c : Octet) (payload : Octets) : Option Instr :=
  if c = Config.C_I0 then some (.i0 a payload)
  else if c = p.cI1 then some (.i1 a payload)
  else none

/-- A candidate instruction is accepted when it is there and well formed. -/
def acceptIfWf (p : Params) : Option Instr → Except Reject Instr
  | none => .error .unknownControl
  | some i => if i.wf p then .ok i else .error .illFormed

/-- A five-octet sequence: the control frame shape (30_encoding.md R81). -/
def decodeControl (p : Params) (f a c x g : Octet) : Except Reject Instr :=
  if f ≠ Config.FLAG then .error .noOpeningFlag
  else if g ≠ Config.FLAG then .error .noClosingFlag
  else if x ≠ a ^^^ c then .error .badHeaderChecksum
  else acceptIfWf p (controlInstr p a c)

/-- Six octets or more: the information frame shape (30_encoding.md R82); `rest` is what follows `BCC1`. -/
def decodeInfo (p : Params) (f a c x : Octet) (rest : Octets) : Except Reject Instr :=
  if f ≠ Config.FLAG then .error .noOpeningFlag
  else if rest.getLast? ≠ some Config.FLAG then .error .noClosingFlag
  else if x ≠ a ^^^ c then .error .badHeaderChecksum
  else if Config.FLAG ∈ rest.dropLast then .error .flagInRegion
  else
    match destuffPayload rest.dropLast with
    | .error e => .error (.badRegion e)
    | .ok (payload, chk) =>
      if bcc payload ≠ chk then .error .badChecksum2
      else if stuff (payload ++ [chk]) ≠ rest.dropLast then .error .nonCanonicalEscape
      else acceptIfWf p (infoInstr p a c payload)

/-- Octets on the wire: one whole frame, or a rejection by name (30_encoding.md R80 to R96). -/
def decodeWire (p : Params) : Octets → Except Reject Instr
  | [f, a, c, x, g] => decodeControl p f a c x g
  | f :: a :: c :: x :: y :: z :: rest => decodeInfo p f a c x (y :: z :: rest)
  | _ => .error .tooShort

/-- The suggested codes of the roles (30_encoding.md R97). -/
def decodeRole : Nat → Option Role
  | 0 => some .initiator
  | 1 => some .responder
  | _ => none

/-- A one-bit operand. -/
def decodeBit : Nat → Option Bool
  | 0 => some false
  | 1 => some true
  | _ => none

/-- A word of the command port (30_encoding.md R97). -/
def decodeCommand (code : BitVec 3) (operands : List Operand) : Except Reject Instr :=
  match code.toNat, operands with
  | 0, [.num r, .octets port, .num speed, .num n, .num t] =>
    match decodeRole r with
    | some role => .ok (.open_ role port speed n t)
    | none => .error .badOperands
  | 0, _ => .error .badOperands
  | 1, [.octets payload] => .ok (.send payload)
  | 1, _ => .error .badOperands
  | 2, [] => .ok .receive
  | 2, _ => .error .badOperands
  | 3, [.num r] =>
    match decodeBit r with
    | some report => .ok (.close report)
    | none => .error .badOperands
  | 3, _ => .error .badOperands
  | 4, [] => .ok .statistics
  | 4, _ => .error .badOperands
  | _, _ => .error .unknownCommand

/-- The decoder: the well-formed instruction a word is, or why it is none. -/
def decode (p : Params) : Words → Except Reject Instr
  | .wire bs => decodeWire p bs
  | .command code operands => decodeCommand code operands

/-- The code of a role (30_encoding.md R97). -/
def encodeRole : Role → Nat
  | .initiator => 0
  | .responder => 1

/-- The encoder: a frame's octets (30_encoding.md R81, R82, R88) or a command's code and operands (R97). -/
def encode (p : Params) : Instr → Words
  | .set a => .wire (ctrl a Config.C_SET)
  | .ua a => .wire (ctrl a Config.C_UA)
  | .disc a => .wire (ctrl a p.cDISC)
  | .rr0 a => .wire (ctrl a p.cRR0)
  | .rr1 a => .wire (ctrl a p.cRR1)
  | .rej0 a => .wire (ctrl a p.cREJ0)
  | .rej1 a => .wire (ctrl a p.cREJ1)
  | .i0 a payload => .wire (infoFrame a (p.cI false) payload)
  | .i1 a payload => .wire (infoFrame a (p.cI true) payload)
  | .open_ role port speed n t =>
    .command 0 [.num (encodeRole role), .octets port, .num speed, .num n, .num t]
  | .send payload => .command 1 [.octets payload]
  | .receive => .command 2 []
  | .close report => .command 3 [.num report.toNat]
  | .statistics => .command 4 []

/-- The octets of a number, bits 7..0 first. -/
def octetsOf : Nat → Nat → Octets
  | 0, _ => []
  | n + 1, w => BitVec.ofNat 8 w :: octetsOf n (w / 256)

/-- A command whose operands are all zero (numbers 0, sequences empty), by its code. -/
def zeroCommand (code : BitVec 3) : Words :=
  match code.toNat with
  | 0 => .command code [.num 0, .octets [], .num 0, .num 0, .num 0]
  | 1 => .command code [.octets []]
  | 3 => .command code [.num 0]
  | _ => .command code []

/-- The word that a row of opcode_table.json stands for, from its bits. The table gives a frame row the control
octet alone (30_encoding.md R101), so the frame is completed by its format: flags, address `A_TX`, `BCC1`, and
for information class the data region of the empty payload. A row of fewer than eight bits is a command code.
The numerals 0, 1 and 3 are codes of both ports: in eight bits they are read as control octets. Five octets or
more are a whole frame, first octet in bits 7..0, or (the table's own figure) first octet in the top bits.
DESIGN CHOICE, notes/assumptions/11.md (safe). -/
def tableWords (nbits w : Nat) : Words :=
  let p := Params.default
  if nbits < 8 then zeroCommand (BitVec.ofNat 3 w)
  else if nbits < 40 then
    let c := BitVec.ofNat 8 w
    if (infoInstr p Config.A_TX c []).isSome then .wire (infoFrame Config.A_TX c [])
    else if (controlInstr p Config.A_TX c).isNone && w < 8 then zeroCommand (BitVec.ofNat 3 w)
    else .wire (ctrl Config.A_TX c)
  else
    let bs := octetsOf (nbits / 8) w
    match decodeWire p bs with
    | .ok _ => .wire bs
    | .error _ =>
      match decodeWire p bs.reverse with
      | .ok _ => .wire bs.reverse
      | .error _ => .wire bs

/-- The instruction the decoder reads from a word of opcode_table.json, with the table's own values (the
defaults of 00_scope.md R7) for the parameters. -/
def decodeTableWord (nbits w : Nat) : Option Instr :=
  match decode Params.default (tableWords nbits w) with
  | .ok i => some i
  | .error _ => none

end Sys2Proof
end

