-- ==== Sys2Proof/Machine/State.lean ====
section
/-! DEFINITION. The state of the engine (10_state.md), its input events and output actions (00_scope.md R5, R11),
the reasons a step may stop, and the state after reset. Everything here is plain data. -/

namespace Sys2Proof.Machine

/-- `SESSION`, the lifecycle state (10_state.md R25). -/
inductive Session where
  | closed
  | connecting
  | open_
  | closing
  deriving DecidableEq, Repr

/-- `PHASE`, the wait in progress (10_state.md R27); `none`: no host command in progress. -/
inductive Phase where
  | none
  | awaitUA
  | awaitSET
  | awaitAck
  | awaitData
  | awaitDISC
  deriving DecidableEq, Repr

/-- The three timed waits (43_arq_controller.md R201, column "timed"). -/
inductive TimedWait where
  | ua
  | ack
  | disc
  deriving DecidableEq, Repr

/-- `RX_STATE`, what has been received of a frame (10_state.md R33). -/
inductive RxState where
  | idle
  | flag
  | addr
  | ctrl
  | bcc1
  | payload
  | done
  deriving DecidableEq, Repr

/-- The outcome of a receiver step (41_ctrl_receiver.md R150). -/
inductive RxOutcome where
  | needMore
  | resync
  | accepted
  | rejected
  | dataAccepted
  | duplicate
  | bcc2Mismatch
  deriving DecidableEq, Repr

/-- The registers a receiver step may write (41_ctrl_receiver.md R152): `RX_STATE`, `RX_A`, `RX_C`, `RX_KIND`,
`RX_DUP`, `ESC_PEND`, `ACC`, `RX_LEN`. `acc` lists the cells written so far (or held at reset), cell 0 first;
the accumulator's value is its first `len` cells. notes/assumptions/14.md. -/
structure Receiver where
  state : RxState
  a : Octet
  c : Octet
  kind : FrameKind
  dup : Bool
  escPend : Bool
  acc : Octets
  len : Nat
  deriving DecidableEq, Repr

/-- The statistics counters (10_state.md R40 to R44), and a snapshot of them (43_arq_controller.md R229). -/
structure Stats where
  framesSent : Nat
  retransmissions : Nat
  timeouts : Nat
  errors : Nat
  deriving DecidableEq, Repr

/-- The errors that can appear in a result (30_encoding.md R98). -/
inductive Err where
  | channelError
  | payloadTooLarge
  | maxRetransmissionsExceeded
  | peerUnreachable
  | disconnected
  | invalidOperation
  deriving DecidableEq, Repr

/-- The values of a successful result (30_encoding.md R97). -/
inductive Value where
  /-- OPEN: `Connection`. -/
  | connection
  /-- SEND: `bytesSent`. -/
  | bytesSent (n : Nat)
  /-- RECEIVE: the payload. -/
  | payload (bs : Octets)
  /-- CLOSE with `reportStatistics = 0`: `()`. -/
  | unit
  /-- STATISTICS, and CLOSE with `reportStatistics = 1`. -/
  | snapshot (counts : Stats)
  deriving DecidableEq, Repr

/-- A command's result, `Ok(value)` or `Err(error)` (30_encoding.md R98). -/
inductive Result where
  | ok (value : Value)
  | err (error : Err)
  deriving DecidableEq, Repr

/-- The output actions (00_scope.md R11); a channel action is recorded with the answer it got in the same step.
notes/assumptions/17.md. -/
inductive Action where
  | chanOpen (portSpecifier : Octets) (speed : Nat) (answer : Answer)
  | chanWrite (frame : Octets) (answer : Answer)
  | chanClose (answer : Answer)
  | timerArm (seconds : Nat)
  | timerCancel
  | result (r : Result)
  deriving DecidableEq, Repr

/-- The input events (00_scope.md R5, 60_exceptions.md R271). -/
inductive Event where
  /-- A word at an input port: a host command, or a run of octets delivered in order (a frame, when they are
  one). notes/assumptions/6.md, 10.md. -/
  | word (w : Words)
  /-- `RxByte(b)`. -/
  | rxByte (b : Octet)
  /-- The environment delivers the oldest octet it held back (20_memory.md R62). notes/assumptions/7.md. -/
  | heldDelivered
  /-- The environment loses the oldest octet it held back (20_memory.md R62). notes/assumptions/7.md. -/
  | heldLost
  /-- `TimerExpiry`. -/
  | timerExpiry
  /-- `ChannelError`: a read answered `Error`. -/
  | channelError
  /-- `Reset`. -/
  | reset
  deriving DecidableEq, Repr

/-- The environment's side of the ports; no register of the engine is here. notes/assumptions/4.md, 5.md, 7.md,
17.md. -/
structure Env where
  /-- Input events to come, oldest first. -/
  inputs : List Event
  /-- Octets that arrived while no wait was in progress, oldest first. -/
  held : Octets
  /-- The channel adapter's answers to come, next first. -/
  answers : List Answer
  /-- How many answers were asked for: the argument of the free value `Config.channelAnswer`. -/
  asks : Nat
  /-- The actions emitted so far, oldest first. -/
  actions : List Action
  deriving DecidableEq, Repr

/-- The whole state: parameters, ARQ registers (10_state.md R22 to R32), the remembered `reportStatistics`
(43_arq_controller.md R220), receiver registers, statistics, environment. -/
structure State where
  params : Params
  role : Role
  maxRetx : Nat
  timeoutS : Nat
  session : Session
  failed : Bool
  phase : Phase
  seq : Bool
  txbuf : Octets
  txlen : Nat
  txPlen : Nat
  retry : Nat
  timerArmed : Bool
  report : Bool
  rx : Receiver
  stats : Stats
  env : Env
  deriving DecidableEq, Repr

/-- The reasons a step stops with a fault. No state that satisfies the invariant of Safety.lean raises one. -/
inductive Fault where
  /-- Raised by the outcome rules for a pair (`PHASE`, outcome) of which 43_arq_controller.md R202 says "No other
  pair can occur". Safe: the model stops where the spec has no rule. notes/assumptions/12.md. -/
  | noRuleForOutcome
  /-- Raised by a timer expiry with `TIMER_ARMED = 1` outside the three timed waits, which 60_exceptions.md R261
  excludes. Safe: the model stops where the spec has no rule. notes/assumptions/12.md. -/
  | expiryOutsideTimedWait
  deriving DecidableEq, Repr

/-- The reasons a step gives no meaning. -/
inductive Refusal where
  /-- Raised by exec for an instruction that has no meaning yet. Safe. -/
  | notModelled (mnemonic : String)
  /-- Raised by every host command while `PHASE` is not `None` (43_arq_controller.md R200, 70_reset_and_hazards.md
  R310, 93_implementation_defined.md U2). Safe: the spec gives the event no step. notes/assumptions/9.md. -/
  | commandWhileBusy
  /-- Raised by step for a command-port word that is no command of 30_encoding.md R97. Safe: nothing runs.
  notes/assumptions/10.md. -/
  | notACommand
  deriving DecidableEq, Repr

/-- The outcome of an event or an instruction. -/
abbrev Step := Host.Outcome State Fault Refusal

/-- The receiver after `Reset` (10_state.md R47). -/
def Receiver.resetOf (u : PowerOn) : Receiver :=
  { state := .idle, a := u.rxA, c := u.rxC, kind := u.rxKind, dup := false, escPend := false,
    acc := u.acc, len := 0 }

/-- The engine's registers after `Reset` (10_state.md R47, 70_reset_and_hazards.md R301), for any parameters and
any environment: the elements the table gives a value have it, the unspecified ones are `p.powerOn`'s. -/
def State.resetOf (p : Params) (env : Env) : State :=
  { params := p, role := p.powerOn.role, maxRetx := p.powerOn.maxRetx, timeoutS := p.powerOn.timeoutS,
    session := .closed, failed := false, phase := .none, seq := false, txbuf := p.powerOn.txbuf, txlen := 0,
    txPlen := 0, retry := 0, timerArmed := false, report := p.powerOn.report,
    rx := Receiver.resetOf p.powerOn,
    stats := { framesSent := 0, retransmissions := 0, timeouts := 0, errors := 0 }, env := env }

/-- An environment that has done nothing yet. notes/assumptions/5.md. -/
def Env.quiet : Env := { inputs := [], held := [], answers := [], asks := 0, actions := [] }

/-- The machine right after reset, with the default parameters (notes/assumptions/1.md, 2.md, 3.md). -/
def State.reset : State := State.resetOf Params.default Env.quiet

end Sys2Proof.Machine
end

