-- ==== Sys2Proof/Machine/Operands.lean ====
section
/-! DEFINITION. What the operations read: the parameters of each wait (43_arq_controller.md R201), the values of
the two buffers, and the legality of a command (R200). -/

namespace Sys2Proof.Machine

/-- The timed waits of 43_arq_controller.md R201. -/
def Phase.timed : Phase → Option TimedWait
  | .none => Option.none
  | .awaitUA => some .ua
  | .awaitSET => Option.none
  | .awaitAck => some .ack
  | .awaitData => Option.none
  | .awaitDISC => some .disc

/-- `EXP_A`, the expected address octet (43_arq_controller.md R201). -/
def expA (p : Params) : Phase → Octet
  | .none => Config.A_TX
  | .awaitUA => Config.A_TX
  | .awaitSET => Config.A_TX
  | .awaitAck => Config.A_TX
  | .awaitData => Config.A_TX
  | .awaitDISC => p.aRX

/-- `ACCEPT`: the kind and the duplicate bit of an acceptable control octet (43_arq_controller.md R201). In
`AwaitData` the three octets are tried in the order of the table. -/
def accept (p : Params) (phase : Phase) (seq : Bool) (b : Octet) : Option (FrameKind × Bool) :=
  match phase with
  | .none => Option.none
  | .awaitUA => if b = Config.C_UA then some (.ctrl, false) else Option.none
  | .awaitSET => if b = Config.C_SET then some (.ctrl, false) else Option.none
  | .awaitAck => if b = p.ackCode seq then some (.ctrl, false) else Option.none
  | .awaitData =>
    if b = p.cI seq then some (.info, false)
    else if b = p.cI (!seq) then some (.info, true)
    else if b = p.cDISC then some (.ctrl, false)
    else Option.none
  | .awaitDISC => if b = p.cDISC then some (.ctrl, false) else Option.none

/-- `REJECTS` (43_arq_controller.md R201): non-empty in `AwaitAck` only. -/
def rejects (p : Params) (phase : Phase) (seq : Bool) (b : Octet) : Bool :=
  match phase with
  | .none => false
  | .awaitUA => false
  | .awaitSET => false
  | .awaitAck => b == p.rejCode seq
  | .awaitData => false
  | .awaitDISC => false

/-- The octets of a buffer after `f` is loaded at index 0 (00_scope.md R11, `TXBUF <- f`). -/
def loadCells (cells f : Octets) : Octets := f ++ cells.drop f.length

/-- The cells after `v` is stored at index `n`, the next free one (00_scope.md R11, `ACC[RX_LEN] <- v`). -/
def storeCell (cells : Octets) (n : Nat) (v : Octet) : Octets := cells.take n ++ v :: cells.drop (n + 1)

/-- `ACC[0 .. RX_LEN-1]` (10_state.md R37). -/
def Receiver.value (r : Receiver) : Octets := r.acc.take r.len

/-- The frame in `TXBUF` (10_state.md R29). -/
def State.txFrame (s : State) : Octets := s.txbuf.take s.txlen

/-- The answer the channel adapter gives to the next ask (00_scope.md R11): the next of the environment's list,
or a free value. notes/assumptions/4.md. -/
def State.answer (s : State) : Answer := s.env.answers.head?.getD (Config.channelAnswer s.env.asks)

/-- OPEN is legal when `SESSION = Closed` (43_arq_controller.md R200). -/
def State.openLegal (s : State) : Bool := s.session == .closed

/-- SEND is legal when `SESSION = Open`, `ROLE = Initiator` and `FAILED = 0` (43_arq_controller.md R200). -/
def State.sendLegal (s : State) : Bool := s.session == .open_ && s.role == .initiator && !s.failed

/-- RECEIVE is legal when `SESSION = Open`, `ROLE = Responder` and `FAILED = 0` (43_arq_controller.md R200). -/
def State.receiveLegal (s : State) : Bool := s.session == .open_ && s.role == .responder && !s.failed

/-- CLOSE is legal when `SESSION = Open`, or `SESSION = Closing` and `ROLE = Responder`
(43_arq_controller.md R200). -/
def State.closeLegal (s : State) : Bool :=
  s.session == .open_ || (s.session == .closing && s.role == .responder)

end Sys2Proof.Machine
end

