-- ==== Sys2Proof/Machine/Flags.lean ====
section
/-! DEFINITION. The one-bit flags of the engine (10_state.md R45) that are computed, and the counting of the
statistics. There are no arithmetic condition codes (R45). `ESC_PEND` and `RX_DUP` are written by the receiver
(Receiver.lean), `TIMER_ARMED` and `FAILED` by the operations of Ops.lean. -/

namespace Sys2Proof.Machine

/-- One more event in a statistics counter (10_state.md R44): unbounded, or saturating at `2^STAT_W - 1` and
never wrapping. notes/assumptions/18.md. -/
def bump (p : Params) (n : Nat) : Nat :=
  match p.statW with
  | none => n + 1
  | some w => if n + 1 < 2 ^ w then n + 1 else n

/-- `SEQ <- SEQ ^ 1` (10_state.md R28). -/
def State.toggleSeq (s : State) : State := { s with seq := !s.seq }

/-- `FRAMES_SENT <- FRAMES_SENT + 1` (10_state.md R40). -/
def State.countSent (s : State) : State :=
  { s with stats := { s.stats with framesSent := bump s.params s.stats.framesSent } }

/-- `RETRANSMISSIONS <- RETRANSMISSIONS + 1` (10_state.md R41). -/
def State.countRetransmission (s : State) : State :=
  { s with stats := { s.stats with retransmissions := bump s.params s.stats.retransmissions } }

/-- `TIMEOUTS <- TIMEOUTS + 1` (10_state.md R42). -/
def State.countTimeout (s : State) : State :=
  { s with stats := { s.stats with timeouts := bump s.params s.stats.timeouts } }

/-- `ERRORS <- ERRORS + 1` (10_state.md R43). -/
def State.countError (s : State) : State :=
  { s with stats := { s.stats with errors := bump s.params s.stats.errors } }

end Sys2Proof.Machine
end

