-- ==== Sys2Proof/Machine/Ops.lean ====
section
/-! DEFINITION. The named operations: the pseudocode primitives (00_scope.md R11), the shared procedures
(43_arq_controller.md R225 to R227, R232), which are what the engine does on an error (60_exceptions.md R277),
and the way an operation ends (`result`, R278). -/

namespace Sys2Proof.Machine

/-! ## Primitives -/

/-- Emit an output action (20_memory.md R71 (b)). -/
def State.emit (act : Action) (s : State) : State :=
  { s with env := { s.env with actions := s.env.actions ++ [act] } }

/-- A channel action: it is emitted, and the adapter's answer to it is used up (00_scope.md R11). -/
def State.chanAsk (act : Action) (s : State) : State :=
  { s with env := { s.env with answers := s.env.answers.drop 1, asks := s.env.asks + 1,
                               actions := s.env.actions ++ [act] } }

/-- `ChanClose()` (00_scope.md R11). -/
def State.chanClose (s : State) : State := s.chanAsk (.chanClose s.answer)

/-- `TimerArm(TIMEOUT_S)` (00_scope.md R11, 10_state.md R32). -/
def State.timerArm (s : State) : State := { s.emit (.timerArm s.timeoutS) with timerArmed := true }

/-- `TimerCancel()` (00_scope.md R11, 10_state.md R32). -/
def State.timerCancel (s : State) : State := { s.emit .timerCancel with timerArmed := false }

/-- `if TIMER_ARMED = 1: TimerCancel()` (43_arq_controller.md R226, R232). -/
def State.cancelIfArmed (s : State) : State := if s.timerArmed then s.timerCancel else s

/-- `Result(v)`: the command in progress ends (00_scope.md R11). -/
def State.result (r : Result) (s : State) : State := { s.emit (.result r) with phase := .none }

/-- Receiver initialisation (10_state.md R48). -/
def Receiver.init (r : Receiver) : Receiver :=
  { r with state := .idle, escPend := false, len := 0, dup := false }

/-- `RxInit()` (10_state.md R48). -/
def State.rxInit (s : State) : State := { s with rx := s.rx.init }

/-- `TXBUF <- f` (00_scope.md R11). -/
def State.loadTx (f : Octets) (s : State) : State :=
  { s with txbuf := loadCells s.txbuf f, txlen := f.length }

/-- The success value of CLOSE (43_arq_controller.md R230): a snapshot, or `()`. -/
def State.closeValue (report : Bool) (s : State) : Value := if report then .snapshot s.stats else .unit

/-! ## Shared procedures -/

/-- `ChannelFail()` (43_arq_controller.md R232). With `SESSION = Closed` no channel is held (10_state.md R39 (e))
and R232 has no case: the command ends with the error and nothing is released. notes/assumptions/13.md. -/
def channelFail (s : State) : State :=
  let s := s.cancelIfArmed.countError.rxInit
  match s.session with
  | .connecting => { s.chanClose with session := .closed }.result (.err .channelError)
  | .open_ => { s with failed := true }.result (.err .channelError)
  | .closing => { s.chanClose with session := .closed }.result (.err .channelError)
  | .closed => s.result (.err .channelError)

/-- `Write(f)` and the rest `k` of the calling rule (43_arq_controller.md R225): the rest is abandoned when the
channel answers `error`. -/
def write (f : Octets) (k : State → State) (s : State) : State :=
  match s.answer with
  | .ok => k (s.chanAsk (.chanWrite f .ok)).countSent
  | .error => channelFail (s.chanAsk (.chanWrite f .error))

/-- `Exhausted()`: the retry budget is spent (43_arq_controller.md R227). -/
def exhausted (w : TimedWait) (s : State) : State :=
  let s := s.countError.rxInit
  match w with
  | .ua => { s.chanClose with session := .closed }.result (.err .peerUnreachable)
  | .ack => { s with failed := true }.result (.err .maxRetransmissionsExceeded)
  | .disc => { s.chanClose with session := .closed }.result (.err .maxRetransmissionsExceeded)

/-- The resend of the frame in `TXBUF` (43_arq_controller.md R226, the else branch). -/
def resend (s : State) : State :=
  write s.txFrame (fun s => s.countRetransmission.timerArm.rxInit) s

/-- `RetryOrFail()` in a timed wait (43_arq_controller.md R226): the budget is tested before the resend. -/
def retryOrFail (w : TimedWait) (s : State) : State :=
  let s := { s with retry := s.retry + 1 }.cancelIfArmed
  if s.maxRetx ≤ s.retry then exhausted w s else resend s

/-- A host command (43_arq_controller.md R200, R231): no step while `PHASE` is not `None`; an illegal command
ends in `InvalidOperation` and changes nothing. -/
def command (legal : Bool) (body : State → State) (s : State) : Step :=
  if s.phase = .none then .next (if legal then body s else s.result (.err .invalidOperation))
  else .refused .commandWhileBusy

end Sys2Proof.Machine
end

