-- ==== Sys2Proof/Machine/Receiver.lean ====
section
/-! DEFINITION. The receiver: the header states shared by both receivers (41_ctrl_receiver.md R153 to R158) and
the payload state of the Data-Frame Receiver (42_data_receiver.md R174 to R181). A step reads and writes the
receiver's registers and reads the wait's parameters, nothing else (41_ctrl_receiver.md R152). -/

namespace Sys2Proof.Machine

/-- State `RX_IDLE` (41_ctrl_receiver.md R153). -/
def rxIdle (b : Octet) (r : Receiver) : RxOutcome × Receiver :=
  if b = Config.FLAG then (.needMore, { r with state := .flag }) else (.needMore, r)

/-- State `RX_FLAG` (41_ctrl_receiver.md R154). -/
def rxFlag (p : Params) (phase : Phase) (b : Octet) (r : Receiver) : RxOutcome × Receiver :=
  if b = expA p phase then (.needMore, { r with a := b, state := .addr })
  else if b = Config.FLAG then (.needMore, r)
  else (.resync, { r with state := .idle })

/-- State `RX_ADDR` (41_ctrl_receiver.md R155). -/
def rxAddr (p : Params) (phase : Phase) (seq : Bool) (b : Octet) (r : Receiver) : RxOutcome × Receiver :=
  match accept p phase seq b with
  | some (kind, dup) => (.needMore, { r with c := b, kind := kind, dup := dup, state := .ctrl })
  | none =>
    if rejects p phase seq b then (.rejected, { r with state := .idle })
    else if b = Config.FLAG then (.resync, { r with state := .flag })
    else (.resync, { r with state := .idle })

/-- State `RX_CTRL` (41_ctrl_receiver.md R156): the header checksum of the two latched octets. -/
def rxCtrl (b : Octet) (r : Receiver) : RxOutcome × Receiver :=
  if b = r.a ^^^ r.c then
    match r.kind with
    | .info => (.needMore, { r with len := 0, escPend := false, state := .payload })
    | .ctrl => (.needMore, { r with state := .bcc1 })
  else if b = Config.FLAG then (.resync, { r with state := .flag })
  else (.resync, { r with state := .idle })

/-- State `RX_BCC1` (41_ctrl_receiver.md R157). -/
def rxBcc1 (b : Octet) (r : Receiver) : RxOutcome × Receiver :=
  if b = Config.FLAG then (.accepted, { r with state := .done }) else (.resync, { r with state := .idle })

/-- `Append(v)`: store one destuffed octet, or drop an over-long frame (42_data_receiver.md R178). -/
def rxAppend (p : Params) (v : Octet) (r : Receiver) : RxOutcome × Receiver :=
  if r.len = p.accCap then (.resync, { r with len := 0, state := .idle })
  else (.needMore, { r with acc := storeCell r.acc r.len v, len := r.len + 1 })

/-- The closing flag with `RX_LEN = n + 1` (42_data_receiver.md R180): the last octet is checksum2, and it is
tested before the duplicate bit. -/
def rxClose (n : Nat) (r : Receiver) : RxOutcome × Receiver :=
  let bcc2 := r.acc.getD n 0
  let r := { r with len := n, state := .done }
  if bcc r.value ≠ bcc2 then (.bcc2Mismatch, r)
  else if r.dup then (.duplicate, r)
  else (.dataAccepted, r)

/-- State `RX_PAYLOAD` (42_data_receiver.md R174): the octet after an escape, an escape, the closing flag, an
ordinary octet, tried in this order. -/
def rxPayload (p : Params) (b : Octet) (r : Receiver) : RxOutcome × Receiver :=
  if r.escPend then rxAppend p (b ^^^ Config.STUFF_MASK) { r with escPend := false }
  else if b = Config.ESC then (.needMore, { r with escPend := true })
  else if b = Config.FLAG then
    match r.len with
    | 0 => (.resync, { r with state := .flag })
    | n + 1 => rxClose n r
  else rxAppend p b r

/-- `RxStep(b)` (41_ctrl_receiver.md R152); in `RX_DONE` it behaves as in `RX_IDLE` (R158). -/
def rxStep (p : Params) (phase : Phase) (seq : Bool) (b : Octet) (r : Receiver) : RxOutcome × Receiver :=
  match r.state with
  | .idle => rxIdle b r
  | .flag => rxFlag p phase b r
  | .addr => rxAddr p phase seq b r
  | .ctrl => rxCtrl b r
  | .bcc1 => rxBcc1 b r
  | .payload => rxPayload p b r
  | .done => rxIdle b r

/-- The receiver alone over a run of octets, with the outcome of each: `RxStep` without the controller, so no
`RxInit` between frames. Used to state the receiver's laws (41_ctrl_receiver.md R160, 42_data_receiver.md R184). -/
def rxRun (p : Params) (phase : Phase) (seq : Bool) : Octets → Receiver → List RxOutcome × Receiver
  | [], r => ([], r)
  | b :: bs, r =>
    let one := rxStep p phase seq b r
    let rest := rxRun p phase seq bs one.2
    (one.1 :: rest.1, rest.2)

end Sys2Proof.Machine
end

