-- ==== Sys2Proof/Machine/Events.lean ====
section
/-! DEFINITION. The events that are no host command (60_exceptions.md R271): a received octet and the rules for
its outcomes (43_arq_controller.md R202 to R221), a timer expiry, a channel error, a reset, and the octets the
environment holds between two waits (20_memory.md R62). -/

namespace Sys2Proof.Machine

/-! ## Outcome rules of 43_arq_controller.md, each run after the receiver's step -/

/-- (`AwaitUA`, `Accepted`), the connect confirm (R204). -/
def acceptUA (s : State) : State :=
  { s.timerCancel with retry := 0, session := .open_ }.rxInit.result (.ok .connection)

/-- (`AwaitSET`, `Accepted`), the connect request (R208). -/
def acceptSET (s : State) : State :=
  write (ctrl Config.A_TX Config.C_UA)
    (fun s => { s with session := .open_ }.rxInit.result (.ok .connection)) s

/-- (`AwaitAck`, `Accepted`), the positive acknowledgement (R212). -/
def acceptAck (s : State) : State :=
  { s.timerCancel.toggleSeq with retry := 0 }.rxInit.result (.ok (.bytesSent s.txPlen))

/-- (`AwaitAck`, `Rejected`), the reject of the frame in flight (R213). -/
def rejectedAck (s : State) : State := retryOrFail .ack s.countError

/-- (`AwaitData`, `Accepted`), the disconnect (R216). -/
def acceptDISC (s : State) : State :=
  write (ctrl s.params.aRX s.params.cDISC)
    (fun s => { s with session := .closing }.rxInit.result (.err .disconnected)) s

/-- (`AwaitData`, `DataAccepted`), a new good information frame (R217). -/
def acceptData (s : State) : State :=
  write (ctrl Config.A_TX (s.params.ackCode s.seq))
    (fun t => t.toggleSeq.rxInit.result (.ok (.payload s.rx.value))) s

/-- (`AwaitData`, `Duplicate`), a good frame already delivered (R218). -/
def duplicateData (s : State) : State :=
  write (ctrl Config.A_TX (s.params.ackCode (!s.seq))) State.rxInit s

/-- (`AwaitData`, `Bcc2Mismatch`), a damaged payload (R219). -/
def mismatchData (s : State) : State :=
  write (ctrl Config.A_TX (s.params.rejCode s.seq)) State.rxInit s.countError

/-- (`AwaitDISC`, `Accepted`), the disconnect echo (R221); the result carries the counts at the end (R230). -/
def acceptEcho (s : State) : State :=
  write (ctrl s.params.aRX Config.C_UA)
    (fun s =>
      let s := { s.chanClose with session := .closed }.rxInit
      s.result (.ok (s.closeValue s.report)))
    { s.timerCancel with retry := 0 }

/-- Dispatch of an outcome (R202). `NeedMore` and `Resync` leave the wait going; the nine pairs the rule lists go
to their rules; any other pair has no rule. -/
def onOutcome (o : RxOutcome) (s : State) : Step :=
  match o, s.phase with
  | .needMore, _ => .next s
  | .resync, _ => .next s
  | .accepted, .awaitUA => .next (acceptUA s)
  | .accepted, .awaitSET => .next (acceptSET s)
  | .accepted, .awaitAck => .next (acceptAck s)
  | .rejected, .awaitAck => .next (rejectedAck s)
  | .accepted, .awaitData => .next (acceptDISC s)
  | .dataAccepted, .awaitData => .next (acceptData s)
  | .duplicate, .awaitData => .next (duplicateData s)
  | .bcc2Mismatch, .awaitData => .next (mismatchData s)
  | .accepted, .awaitDISC => .next (acceptEcho s)
  | _, _ => .fault .noRuleForOutcome

/-! ## Received octets -/

/-- An octet stays with the environment (20_memory.md R62). -/
def State.hold (b : Octet) (s : State) : State := { s with env := { s.env with held := s.env.held ++ [b] } }

/-- Event `RxByte(b)` (43_arq_controller.md R202): read only while a wait is in progress. -/
def rxByte (b : Octet) (s : State) : Step :=
  if s.phase = .none then .next (s.hold b)
  else
    let one := rxStep s.params s.phase s.seq b s.rx
    onOutcome one.1 { s with rx := one.2 }

/-- A run of octets, each one an `RxByte` event, in order. notes/assumptions/6.md. -/
def deliver : Octets → State → Step
  | [], s => .next s
  | b :: bs, s =>
    match rxByte b s with
    | .next t => deliver bs t
    | .fault e => .fault e
    | .refused e => .refused e

/-- The environment delivers the oldest held octet; only to a wait (20_memory.md R62). -/
def heldDelivered (s : State) : Step :=
  match s.phase, s.env.held with
  | .none, _ => .next s
  | _, [] => .next s
  | _, b :: bs => rxByte b { s with env := { s.env with held := bs } }

/-- The environment loses the oldest held octet (20_memory.md R62). -/
def heldLost (s : State) : Step := .next { s with env := { s.env with held := s.env.held.tail } }

/-- A word that is no instruction: octets are noise or a frame in pieces, and go through the receiver
(30_encoding.md R93); a command-port word that is no command has no meaning. notes/assumptions/10.md, 16.md. -/
def undecoded (w : Words) (s : State) : Step :=
  match w with
  | .wire bs => deliver bs s
  | .command _ _ => .refused .notACommand

/-! ## Timer, channel, reset -/

/-- Event `TimerExpiry` (60_exceptions.md R272). -/
def timerExpiry (s : State) : Step :=
  if s.timerArmed then
    match s.phase.timed with
    | some w => .next (retryOrFail w { s with timerArmed := false }.countTimeout)
    | none => .fault .expiryOutsideTimedWait
  else .next s

/-- Event `ChannelError` (60_exceptions.md R266 (b)): it is the answer to a read, and none is issued while
`PHASE = None` (R271). notes/assumptions/8.md. -/
def channelErrorEvent (s : State) : Step := .next (if s.phase = .none then s else channelFail s)

/-- Event `Reset` (10_state.md R47, 70_reset_and_hazards.md R300, R302): no action, no result; the parameters and
the environment are not the engine's. -/
def resetEvent (s : State) : Step := .next (State.resetOf s.params s.env)

end Sys2Proof.Machine
end

