-- ==== Sys2Proof/Machine/Commands.lean ====
section
/-! DEFINITION. The five host commands (43_arq_controller.md R200 to R231). -/

namespace Sys2Proof.Machine

/-- What OPEN writes before the roles part (R203, R207): the configuration, and the connection's fresh state.
DESIGN CHOICE (unsafe), notes/assumptions/21.md: `TX_PLEN` and `TXLEN` are not written here, as R203 and R207 write
neither; the OPEN column of 10_state.md R47 gives `TX_PLEN` 0, and `TXLEN` 0 for a responder. -/
def configure (role : Role) (n t : Nat) (s : State) : State :=
  { s with role := role, maxRetx := n, timeoutS := t, seq := false, retry := 0, failed := false,
           stats := { framesSent := 0, retransmissions := 0, timeouts := 0, errors := 0 },
           session := .connecting }

/-- The rest of a timed command after its frame is in `TXBUF`: write it, arm the timer, start the wait (R203,
R210, R220). -/
def startTimedWait (phase : Phase) (s : State) : State :=
  write s.txFrame (fun s => { s.timerArm.rxInit with phase := phase }) s

/-- OPEN with `role = Initiator`, the channel open (R203). -/
def openInitiator (s : State) : State :=
  startTimedWait .awaitUA (s.loadTx (ctrl Config.A_TX Config.C_SET))

/-- OPEN with `role = Responder`, the channel open (R207). `TXLEN` and `TX_PLEN` keep their values: DESIGN CHOICE
(unsafe), notes/assumptions/21.md. -/
def openResponder (s : State) : State := { s.rxInit with phase := .awaitSET }

/-- A legal OPEN (R203, R206, R207). -/
def openLink (role : Role) (port : Octets) (speed n t : Nat) (s : State) : State :=
  match s.answer with
  | .error => (s.chanAsk (.chanOpen port speed .error)).result (.err .channelError)
  | .ok =>
    let s := configure role n t (s.chanAsk (.chanOpen port speed .ok))
    match role with
    | .initiator => openInitiator s
    | .responder => openResponder s

/-- A legal SEND (R210, R211): the length is tested before anything else. -/
def sendPayload (payload : Octets) (s : State) : State :=
  match buildDataFrame s.params payload s.seq Config.A_TX with
  | .error _ => s.result (.err .payloadTooLarge)
  | .ok f => startTimedWait .awaitAck { s.loadTx f with txPlen := payload.length, retry := 0 }

/-- A legal RECEIVE (R215). -/
def startReceive (s : State) : State := { s.rxInit with phase := .awaitData }

/-- A legal CLOSE with `ROLE = Initiator` (R220). -/
def closeInitiator (report : Bool) (s : State) : State :=
  startTimedWait .awaitDISC
    ({ s with failed := false, session := .closing, retry := 0, report := report }.loadTx
      (ctrl Config.A_TX s.params.cDISC))

/-- A legal CLOSE with `ROLE = Responder` (R224): the one place that reads the answer of `ChanClose`. -/
def closeResponder (report : Bool) (s : State) : State :=
  let t := { s.chanClose with failed := false, session := .closed }
  match s.answer with
  | .error => t.countError.result (.err .channelError)
  | .ok => t.result (.ok (t.closeValue report))

/-- A legal CLOSE (R220, R224). -/
def closeLink (report : Bool) (s : State) : State :=
  match s.role with
  | .initiator => closeInitiator report s
  | .responder => closeResponder report s

/-- OPEN (R200, R203, R206, R207, R231). -/
def execOpen (role : Role) (port : Octets) (speed n t : Nat) (s : State) : Step :=
  command s.openLegal (openLink role port speed n t) s

/-- SEND (R200, R210, R211, R231). -/
def execSend (payload : Octets) (s : State) : Step := command s.sendLegal (sendPayload payload) s

/-- RECEIVE (R200, R215, R231). -/
def execReceive (s : State) : Step := command s.receiveLegal startReceive s

/-- CLOSE (R200, R220, R224, R231). -/
def execClose (report : Bool) (s : State) : Step := command s.closeLegal (closeLink report) s

/-- STATISTICS (R200, R229): always legal while `PHASE = None`. -/
def execStatistics (s : State) : Step := command true (fun s => s.result (.ok (.snapshot s.stats))) s

end Sys2Proof.Machine
end

