-- ==== Sys2Proof/Machine/Frames.lean ====
section
/-! DEFINITION. The frames as instructions: the frame arrives, octet by octet, at the engine (44_frames.md).
notes/assumptions/6.md. -/

namespace Sys2Proof.Machine

/-- SET arrives (44_frames.md R240). -/
def execSet (a : Octet) (s : State) : Step := deliver (ctrl a Config.C_SET) s

/-- UA arrives (44_frames.md R241). -/
def execUa (a : Octet) (s : State) : Step := deliver (ctrl a Config.C_UA) s

/-- DISC arrives (44_frames.md R242). -/
def execDisc (a : Octet) (s : State) : Step := deliver (ctrl a s.params.cDISC) s

/-- RR0 arrives (44_frames.md R243). -/
def execRr0 (a : Octet) (s : State) : Step := deliver (ctrl a s.params.cRR0) s

/-- RR1 arrives (44_frames.md R244). -/
def execRr1 (a : Octet) (s : State) : Step := deliver (ctrl a s.params.cRR1) s

/-- REJ0 arrives (44_frames.md R245). -/
def execRej0 (a : Octet) (s : State) : Step := deliver (ctrl a s.params.cREJ0) s

/-- REJ1 arrives (44_frames.md R246). -/
def execRej1 (a : Octet) (s : State) : Step := deliver (ctrl a s.params.cREJ1) s

/-- I0 arrives (44_frames.md R247). -/
def execI0 (a : Octet) (payload : Octets) (s : State) : Step := deliver (infoFrame a (s.params.cI false) payload) s

/-- I1 arrives (44_frames.md R248). -/
def execI1 (a : Octet) (payload : Octets) (s : State) : Step := deliver (infoFrame a (s.params.cI true) payload) s

end Sys2Proof.Machine
end

