-- ==== Sys2Proof/Machine/Dispatch.lean ====
section
/-! DEFINITION. The dispatch: one arm per instruction, each one direct call of its meaning. -/

namespace Sys2Proof.Machine

/-- The meaning of an instruction. -/
def exec (i : Instr) (s : State) : Host.Outcome State Fault Refusal :=
  match i with
  | .set a => Sys2Proof.Machine.execSet a s
  | .ua a => Sys2Proof.Machine.execUa a s
  | .disc a => Sys2Proof.Machine.execDisc a s
  | .rr0 a => Sys2Proof.Machine.execRr0 a s
  | .rr1 a => Sys2Proof.Machine.execRr1 a s
  | .rej0 a => Sys2Proof.Machine.execRej0 a s
  | .rej1 a => Sys2Proof.Machine.execRej1 a s
  | .i0 a payload => Sys2Proof.Machine.execI0 a payload s
  | .i1 a payload => Sys2Proof.Machine.execI1 a payload s
  | .open_ role port speed n t => Sys2Proof.Machine.execOpen role port speed n t s
  | .send payload => Sys2Proof.Machine.execSend payload s
  | .receive => Sys2Proof.Machine.execReceive s
  | .close report => Sys2Proof.Machine.execClose report s
  | .statistics => Sys2Proof.Machine.execStatistics s

end Sys2Proof.Machine
end

