-- ==== Sys2Proof/Machine/Step.lean ====
section
/-! DEFINITION. One step: the oldest input event is taken and processed to completion (20_memory.md R71). Without
an event nothing happens (20_memory.md R61: `WouldBlock` "is the absence of an event and changes nothing"). -/

namespace Sys2Proof.Machine

/-- The oldest input event is taken from the environment. -/
def State.takeInput (rest : List Event) (s : State) : State := { s with env := { s.env with inputs := rest } }

/-- One event (60_exceptions.md R271). A word that decodes is its instruction. -/
def runEvent (e : Event) (s : State) : Host.Outcome State Fault Refusal :=
  match e with
  | .word w =>
    match decode s.params w with
    | .ok i => exec i s
    | .error _ => undecoded w s
  | .rxByte b => rxByte b s
  | .heldDelivered => heldDelivered s
  | .heldLost => heldLost s
  | .timerExpiry => timerExpiry s
  | .channelError => channelErrorEvent s
  | .reset => resetEvent s

/-- One step of the engine. -/
def step (s : State) : Host.Outcome State Fault Refusal :=
  match s.env.inputs with
  | [] => .next s
  | e :: rest => runEvent e (s.takeInput rest)

/-- `s` with a word of opcode_table.json before its next step: the word is the oldest input event.
notes/assumptions/5.md, 11.md. -/
def State.withFetchWord (s : State) (nbits w : Nat) : State :=
  { s with env := { s.env with inputs := .word (tableWords nbits w) :: s.env.inputs } }

end Sys2Proof.Machine
end

