-- ==== Sys2Proof/Safety.lean ====
section
/-! DEFINITION. What holds between steps (10_state.md R31, R32, R36, R37, R50), and what a safe step is. -/

namespace Sys2Proof.Machine

/-- `SESSION` during each wait, and between commands (10_state.md R50 (a), (b)). -/
def sessionFits : Phase → Session → Bool
  | .none, .connecting => false
  | .none, _ => true
  | .awaitUA, ses => ses == .connecting
  | .awaitSET, ses => ses == .connecting
  | .awaitAck, ses => ses == .open_
  | .awaitData, ses => ses == .open_
  | .awaitDISC, ses => ses == .closing

/-- `ROLE` during each wait (10_state.md R50 (f)); between commands, only a responder is `Closing` (R25). -/
def roleFits : Phase → Session → Role → Bool
  | .none, .closing, role => role == .responder
  | .none, _, _ => true
  | .awaitUA, _, role => role == .initiator
  | .awaitSET, _, role => role == .responder
  | .awaitAck, _, role => role == .initiator
  | .awaitData, _, role => role == .responder
  | .awaitDISC, _, role => role == .initiator

/-- The frame in `TXBUF` during each timed wait (10_state.md R29): the frame that a retransmission repeats. -/
def txFits (s : State) : Prop :=
  match s.phase with
  | .none => True
  | .awaitUA => s.txFrame = ctrl Config.A_TX Config.C_SET
  | .awaitSET => True
  | .awaitAck => ∃ payload, buildDataFrame s.params payload s.seq Config.A_TX = .ok s.txFrame ∧
      payload.length = s.txPlen
  | .awaitData => True
  | .awaitDISC => s.txFrame = ctrl Config.A_TX s.params.cDISC

/-- The receiver's latches agree with the wait that reads them (10_state.md R34, R35; 42_data_receiver.md R173):
the address once latched is the expected one, the control octet once latched is acceptable with the latched kind
and duplicate bit, and the kind selects the state after the header. -/
structure Latched (p : Params) (phase : Phase) (seq : Bool) (r : Receiver) : Prop where
  address : r.state ∈ [RxState.addr, .ctrl, .bcc1, .payload] → r.a = expA p phase
  control : r.state ∈ [RxState.ctrl, .bcc1, .payload] → accept p phase seq r.c = some (r.kind, r.dup)
  kindBcc1 : r.state = .bcc1 → r.kind = .ctrl
  kindPayload : r.state = .payload → r.kind = .info

/-- The invariant of the engine outside a step. -/
structure Inv (s : State) : Prop where
  /-- The buffers' reset contents fit (10_state.md R29, R37). -/
  buffers : s.params.buffersFit
  /-- 10_state.md R50 (a), (b). -/
  session : sessionFits s.phase s.session = true
  /-- 10_state.md R50 (f). -/
  role : roleFits s.phase s.session s.role = true
  /-- 10_state.md R50 (c), R32: the timer is armed exactly in the timed waits. -/
  timer : s.timerArmed = s.phase.timed.isSome
  /-- 10_state.md R50 (d). -/
  quiet : s.phase = .none → s.rx.state = .idle
  /-- 10_state.md R50 (e). -/
  failed : s.failed = true → s.session = .open_ ∧ s.phase = .none
  /-- 10_state.md R31: `RETRY <= max(MAX_RETX, 1)`. -/
  retryBound : s.retry ≤ max s.maxRetx 1
  /-- In a timed wait the budget is not yet spent (43_arq_controller.md R226, R234). -/
  retryLeft : s.phase.timed.isSome = true → s.retry < max s.maxRetx 1
  /-- 10_state.md R33: `RX_DONE` never survives a step. -/
  notDone : s.rx.state ≠ .done
  /-- 10_state.md R36. -/
  escape : s.rx.escPend = true → s.rx.state = .payload
  /-- 10_state.md R37. -/
  lenState : 0 < s.rx.len → s.rx.state = .payload
  /-- 10_state.md R37: `RX_LEN <= ACC_CAP`. -/
  lenBound : s.rx.len ≤ s.params.accCap
  /-- 10_state.md R37: at most `ACC_CAP` cells, and those below `RX_LEN` written. -/
  accCells : s.rx.len ≤ s.rx.acc.length ∧ s.rx.acc.length ≤ s.params.accCap
  /-- 10_state.md R29: at most `TX_CAP` octets. -/
  txCells : s.txlen ≤ s.txbuf.length ∧ s.txbuf.length ≤ s.params.txCap
  /-- 10_state.md R29: what a retransmission repeats. -/
  txFrame : txFits s
  /-- 10_state.md R34, R35; 42_data_receiver.md R173. -/
  latched : Latched s.params s.phase s.seq s.rx

/-- A safe step ends in no fault: the pairs of which 43_arq_controller.md R202 says that they cannot occur do not
occur, and no armed expiry comes outside a timed wait (60_exceptions.md R261). -/
def SafeStep (s : State) : Prop := ∀ f, step s ≠ .fault f

end Sys2Proof.Machine
end

