-- ==== Sys2Proof/Certificates/Slice0/Obligations.lean ====
section
/-! DEFINITION. The statements for the provers. The next states are written out as records, so that each statement
says both what an instruction changes and that everything else stays. -/

namespace Sys2Proof.Machine

/-- An environment after `n` channel answers were used up and the actions `acts` emitted, in this order. -/
def Env.after (e : Env) (n : Nat) (acts : List Action) : Env :=
  { e with answers := e.answers.drop n, asks := e.asks + n, actions := e.actions ++ acts }

/-- The adapter's answer to the ask after the next `n` (from the environment's list, else free). -/
def State.nthAnswer (s : State) (n : Nat) : Answer :=
  (s.env.answers.drop n).head?.getD (Config.channelAnswer (s.env.asks + n))

/-- A receiver looking for a new frame, its latches and cells as they were (10_state.md R48). -/
def Receiver.searching (r : Receiver) : Receiver :=
  { r with state := .idle, dup := false, escPend := false, len := 0 }

/-- A receiver looking for a new frame after a header with address `a` and control octet `c` of kind `k`. -/
def Receiver.searchingAfter (r : Receiver) (a c : Octet) (k : FrameKind) : Receiver :=
  { r.searching with a := a, c := c, kind := k }

/-- The header of a frame: its address and control octets (30_encoding.md R88). -/
def frameHeader (p : Params) : Instr → Option (Octet × Octet)
  | .set a => some (a, Config.C_SET)
  | .ua a => some (a, Config.C_UA)
  | .disc a => some (a, p.cDISC)
  | .rr0 a => some (a, p.cRR0)
  | .rr1 a => some (a, p.cRR1)
  | .rej0 a => some (a, p.cREJ0)
  | .rej1 a => some (a, p.cREJ1)
  | .i0 a _ => some (a, Config.C_I0)
  | .i1 a _ => some (a, p.cI1)
  | _ => none

/-- The host commands (30_encoding.md R97). -/
def isCommand : Instr → Bool
  | .open_ _ _ _ _ _ => true
  | .send _ => true
  | .receive => true
  | .close _ => true
  | .statistics => true
  | _ => false

/-- The octets of an information frame, written out (30_encoding.md R82). -/
def infoOctets (a c : Octet) (payload : Octets) : Octets :=
  [Config.FLAG, a, c, a ^^^ c] ++ stuff (payload ++ [bcc payload]) ++ [Config.FLAG]

/-- The results among actions. -/
def resultsOf (acts : List Action) : List Result :=
  acts.filterMap fun act => match act with
    | .result r => some r
    | _ => none

/-- A channel action. -/
def isChannelAction : Action → Bool
  | .chanOpen _ _ _ => true
  | .chanWrite _ _ => true
  | .chanClose _ => true
  | _ => false

/-- The event is a word that decodes to an OPEN. -/
def isOpenEvent (p : Params) : Event → Prop
  | .word w => ∃ role port speed n t, decode p w = .ok (.open_ role port speed n t)
  | _ => False

/-- The event is a word that decodes to a host command. -/
def isCommandEvent (p : Params) : Event → Prop
  | .word w => ∃ i, decode p w = .ok i ∧ isCommand i = true
  | _ => False

end Sys2Proof.Machine

open Sys2Proof Sys2Proof.Machine

/-! ## The Frame Codec -/

/-- 40_codec.md R122: the two forms of an octet of the data region, and that the octet after an escape is 0x5E or
0x5D, so neither `FLAG` nor `ESC`. -/
def Obligations.StuffOctetForms : Prop :=
  ∀ b : Octet,
    ((b = Config.FLAG ∨ b = Config.ESC) →
      stuffOctet b = [Config.ESC, b ^^^ Config.STUFF_MASK] ∧
      (b ^^^ Config.STUFF_MASK = 0x5E ∨ b ^^^ Config.STUFF_MASK = 0x5D)) ∧
    (b ≠ Config.FLAG → b ≠ Config.ESC → stuffOctet b = [b]) ∧
    stuffOctet 0x7E = [0x7D, 0x5E] ∧ stuffOctet 0x7D = [0x7D, 0x5D]

/-- 40_codec.md R123: stuffing octet by octet, the length, no `FLAG` in the result, every `ESC` in it followed by
0x5E or 0x5D. -/
def Obligations.StuffedRegionShape : Prop :=
  stuff [] = [] ∧ (∀ b t, stuff (b :: t) = stuffOctet b ++ stuff t) ∧
  stuff [0x7D, 0x7E, 0x03] = [0x7D, 0x5D, 0x7D, 0x5E, 0x03] ∧
  ∀ s : Octets,
    (stuff s).length = s.length + s.countP (fun b => b == Config.FLAG || b == Config.ESC) ∧
    Config.FLAG ∉ stuff s ∧
    ∀ u v, stuff s = u ++ Config.ESC :: v → ∃ w, v = 0x5E :: w ∨ v = 0x5D :: w

/-- 40_codec.md section 2 (R125): destuffing inverts stuffing for every payload; without reserved octets stuffing
changes nothing; the converse fails for a non-canonical escape. -/
def Obligations.DestuffInvertsStuff : Prop :=
  (∀ s : Octets, destuff (stuff s) = .ok s) ∧
  (∀ s : Octets, Config.FLAG ∉ s → Config.ESC ∉ s → stuff s = s) ∧
  ∃ r d : Octets, destuff r = .ok d ∧ stuff d ≠ r

/-- 40_codec.md section 2 (R124, with the spec's decision D36): the octet after an escape is data whatever its
value, and a region that ends in an unresolved escape is `TruncatedEscape`. -/
def Obligations.DestuffEscapes : Prop :=
  (∀ (s t : Octets) (b : Octet),
    destuff (stuff s ++ Config.ESC :: b :: stuff t) = .ok (s ++ (b ^^^ Config.STUFF_MASK) :: t)) ∧
  (∀ r d : Octets, destuff r = .ok d → destuff (r ++ [Config.ESC]) = .error .truncatedEscape) ∧
  destuff [] = .ok []

/-- 40_codec.md section 1 (R121 (b)): the checksum of a concatenation, the zero reduction of a good region, any
change of one octet detected, the same change in two octets not detected. -/
def Obligations.ChecksumDetectsOneOctet : Prop :=
  (∀ s t : Octets, bcc (s ++ t) = bcc s ^^^ bcc t) ∧ (∀ s : Octets, bcc (s ++ [bcc s]) = 0) ∧
  (∀ (s u v : Octets) (b m : Octet), s ++ [bcc s] = u ++ b :: v → m ≠ 0 → bcc (u ++ (b ^^^ m) :: v) ≠ 0) ∧
  ∀ (u v w : Octets) (b c m : Octet),
    bcc (u ++ (b ^^^ m) :: v ++ (c ^^^ m) :: w) = bcc (u ++ b :: v ++ c :: w)

/-- 40_codec.md R128: `buildDataFrame` fails exactly for a payload over `MAX_PAYLOAD`; else it is the header, the
stuffed payload and checksum2, the closing flag. Its length, its bound, and where the bound is reached. -/
def Obligations.BuildDataFrameLengths : Prop :=
  ∀ (p : Params) (s : Bool) (a : Octet),
    (∀ payload : Octets, p.maxPayload < payload.length →
      buildDataFrame p payload s a = .error .payloadTooLarge) ∧
    (∀ payload : Octets, payload.length ≤ p.maxPayload →
      ∃ f, buildDataFrame p payload s a = .ok f ∧ f = infoOctets a (p.cI s) payload ∧
        f.length = 6 + payload.length +
          (payload ++ [bcc payload]).countP (fun b => b == Config.FLAG || b == Config.ESC) ∧
        f.length ≤ 2 * payload.length + 7 ∧
        (payload.length = 0 → f = [Config.FLAG, a, p.cI s, a ^^^ p.cI s, 0x00, Config.FLAG]) ∧
        (payload.length % 2 = 0 → f.length ≤ 2 * payload.length + 6)) ∧
    (∀ n, n ≤ p.maxPayload → n % 2 = 1 →
      ∃ payload f, payload.length = n ∧ buildDataFrame p payload s a = .ok f ∧ f.length = 2 * n + 7) ∧
    (∀ n, n ≤ p.maxPayload → n % 2 = 0 →
      ∃ payload f, payload.length = n ∧ buildDataFrame p payload s a = .ok f ∧ f.length = 2 * n + 6) ∧
    buildDataFrame { p with maxPayload := 2 } [0x01, 0x02] false 0x03 =
      .ok [0x7E, 0x03, 0x00, 0x03, 0x01, 0x02, 0x03, 0x7E]

/-- 40_codec.md section 3 (R129, R130): the region of a built frame parses to its payload and checksum2, and a
region without an octet is `MalformedFrame`. -/
def Obligations.BuiltRegionParses : Prop :=
  (∀ (p : Params) (payload f : Octets) (s : Bool) (a : Octet), buildDataFrame p payload s a = .ok f →
    destuffPayload (f.drop 4).dropLast = .ok (payload, bcc payload)) ∧
  destuffPayload [] = .error .malformedFrame

/-! ## Encoding -/

/-- Every well-formed instruction, with every operand, is what the decoder reads from its encoding
(30_encoding.md R81, R82, R88, R97). The operand layout of commands is the model's choice, entry 10. -/
def Obligations.DecodeOfEncode : Prop :=
  ∀ (p : Params) (i : Instr), p.wf → i.wf p = true → decode p (encode p i) = .ok i

/-- What the decoder accepts is well formed and is the encoding of the instruction it gives: no two words are one
instruction, and no bit of a word is ignored. The model's choice in part: that the decoder refuses a frame with a
non-canonical escape is entry 16, and the command words are the layout of entry 10 (both DESIGN CHOICE). -/
def Obligations.EncodeOfDecode : Prop :=
  ∀ (p : Params) (w : Words) (i : Instr), decode p w = .ok i → encode p i = w ∧ i.wf p = true

/-- Frames written out from 30_encoding.md R81, R82, R88 with the defaults of 00_scope.md R7 (entry 1) decode to
their instructions. The model's choices: a command word is a suggested code of R97 with an operand list (entry 10,
three clauses), and octets that are not one whole good frame are rejected by name (entry 16, two clauses). -/
def Obligations.WrittenOutWordsDecode : Prop :=
  let p := Params.default
  decode p (.wire [0x7E, 0x03, 0x03, 0x00, 0x7E]) = .ok (.set 0x03) ∧
  decode p (.wire [0x7E, 0x01, 0x07, 0x06, 0x7E]) = .ok (.ua 0x01) ∧
  decode p (.wire [0x7E, 0x03, 0x85, 0x86, 0x7E]) = .ok (.rr1 0x03) ∧
  decode p (.wire [0x7E, 0x03, 0x01, 0x02, 0x7E]) = .ok (.rej0 0x03) ∧
  decode p (.wire [0x7E, 0x03, 0x40, 0x43, 0x7D, 0x5E, 0x7D, 0x5E, 0x7E]) = .ok (.i1 0x03 [0x7E]) ∧
  decode p (.command 2 []) = .ok .receive ∧
  decode p (.command 1 [.octets [0x01]]) = .ok (.send [0x01]) ∧
  decode p (.wire [0x7E, 0x03, 0x07, 0x05, 0x7E]) = .error .badHeaderChecksum ∧
  decode p (.wire [0x7E, 0x03, 0x00, 0x03, 0x01, 0x7E]) = .error .badChecksum2 ∧
  decode p (.command 7 []) = .error .unknownCommand

/-! ## The receivers -/

/-- 41_ctrl_receiver.md section 2 (R153 to R157; the state after `Rejected` is the spec's decision D10): what each
header state does with each octet, in the rule's order of tests. `RX_ADDR` alone latches `RX_C`, `RX_KIND` and
`RX_DUP` and reports `Rejected`. -/
def Obligations.HeaderStateTransitions : Prop :=
  ∀ (p : Params) (phase : Phase) (seq : Bool) (b : Octet) (r : Receiver),
    (r.state = .idle →
      (b = Config.FLAG → rxStep p phase seq b r = (.needMore, { r with state := .flag })) ∧
      (b ≠ Config.FLAG → rxStep p phase seq b r = (.needMore, r))) ∧
    (r.state = .flag →
      (b = expA p phase → rxStep p phase seq b r = (.needMore, { r with a := b, state := .addr })) ∧
      (b ≠ expA p phase → b = Config.FLAG → rxStep p phase seq b r = (.needMore, r)) ∧
      (b ≠ expA p phase → b ≠ Config.FLAG → rxStep p phase seq b r = (.resync, { r with state := .idle }))) ∧
    (r.state = .addr →
      (∀ kind dup, accept p phase seq b = some (kind, dup) →
        rxStep p phase seq b r = (.needMore, { r with c := b, kind := kind, dup := dup, state := .ctrl })) ∧
      (accept p phase seq b = none → rejects p phase seq b = true →
        rxStep p phase seq b r = (.rejected, { r with state := .idle })) ∧
      (accept p phase seq b = none → rejects p phase seq b = false → b = Config.FLAG →
        rxStep p phase seq b r = (.resync, { r with state := .flag })) ∧
      (accept p phase seq b = none → rejects p phase seq b = false → b ≠ Config.FLAG →
        rxStep p phase seq b r = (.resync, { r with state := .idle }))) ∧
    (r.state = .ctrl →
      (b = r.a ^^^ r.c → r.kind = .info →
        rxStep p phase seq b r = (.needMore, { r with len := 0, escPend := false, state := .payload })) ∧
      (b = r.a ^^^ r.c → r.kind = .ctrl → rxStep p phase seq b r = (.needMore, { r with state := .bcc1 })) ∧
      (b ≠ r.a ^^^ r.c → b = Config.FLAG → rxStep p phase seq b r = (.resync, { r with state := .flag })) ∧
      (b ≠ r.a ^^^ r.c → b ≠ Config.FLAG → rxStep p phase seq b r = (.resync, { r with state := .idle }))) ∧
    (r.state = .bcc1 →
      (b = Config.FLAG → rxStep p phase seq b r = (.accepted, { r with state := .done })) ∧
      (b ≠ Config.FLAG → rxStep p phase seq b r = (.resync, { r with state := .idle })))

/-- 42_data_receiver.md R175 (and 10_state.md R36): in `RX_PAYLOAD` an unescaped `ESC` sets `ESC_PEND`, stores
nothing and stays; no other octet in any state makes `ESC_PEND` 1. The premise is the invariant of R36. -/
def Obligations.EscapePendsOnlyOnUnescapedEsc : Prop :=
  ∀ (p : Params) (phase : Phase) (seq : Bool) (b : Octet) (r : Receiver),
    (r.escPend = true → r.state = .payload) →
    (r.state = .payload → r.escPend = false → b = Config.ESC →
      rxStep p phase seq b r = (.needMore, { r with escPend := true })) ∧
    ((rxStep p phase seq b r).2.escPend = true ↔ r.state = .payload ∧ r.escPend = false ∧ b = Config.ESC)

/-- 42_data_receiver.md section 2 (R176, R178 to R181, with the spec's decisions D12, D13, D14, D17): an escaped
octet is data whatever its value; an octet that does not fit drops the frame; a closing flag with nothing
accumulated is a possible opening flag. -/
def Obligations.PayloadStateTransitions : Prop :=
  ∀ (p : Params) (phase : Phase) (seq : Bool) (b : Octet) (r : Receiver), r.state = .payload →
    r.len ≤ r.acc.length →
    (r.len < p.accCap → (r.escPend = true ∨ (b ≠ Config.ESC ∧ b ≠ Config.FLAG)) →
      ∃ acc, rxStep p phase seq b r = (.needMore, { r with escPend := false, acc := acc, len := r.len + 1 }) ∧
        acc.take (r.len + 1) =
          r.acc.take r.len ++ [if r.escPend then b ^^^ Config.STUFF_MASK else b]) ∧
    (r.len = p.accCap → (r.escPend = true ∨ (b ≠ Config.ESC ∧ b ≠ Config.FLAG)) →
      rxStep p phase seq b r = (.resync, { r with escPend := false, len := 0, state := .idle })) ∧
    (r.escPend = false → b = Config.FLAG → r.len = 0 →
      rxStep p phase seq b r = (.resync, { r with state := .flag })) ∧
    (r.escPend = false → b = Config.FLAG → ∀ n, r.len = n + 1 →
      ∃ chk, r.acc.take (n + 1) = r.acc.take n ++ [chk] ∧
        rxStep p phase seq b r =
          (if bcc (r.acc.take n) ≠ chk then .bcc2Mismatch else if r.dup then .duplicate else .dataAccepted,
            { r with len := n, state := .done }))

/-- 41_ctrl_receiver.md section 3 (R160 (a)): in a wait that accepts control frames only, after any noise that
reports nothing and does not end in a complete header, a control frame is accepted exactly once, at its last
octet. -/
def Obligations.ControlFrameAcceptedAfterNoise : Prop :=
  ∀ (p : Params) (phase : Phase) (seq : Bool) (noise : Octets) (c : Octet) (r : Receiver),
    p.wf → phase ≠ .none → phase ≠ .awaitData → r.state = .idle →
    accept p phase seq c = some (.ctrl, false) →
    RxOutcome.accepted ∉ (rxRun p phase seq noise r).1 → RxOutcome.rejected ∉ (rxRun p phase seq noise r).1 →
    (rxRun p phase seq noise r).2.state ≠ .bcc1 →
    ∃ first, (first = .needMore ∨ first = .resync) ∧
      (rxRun p phase seq (noise ++ ctrl (expA p phase) c) r).1 =
        (rxRun p phase seq noise r).1 ++ [first, .needMore, .needMore, .needMore, .accepted]

/-- 41_ctrl_receiver.md section 3 (R160 (b), (c)): whatever the octets, `Accepted` is reported only when the last
five were a control frame with the expected address and an acceptable control octet, and `Rejected` only when the
last three were a flag, the expected address and a reject control octet. -/
def Obligations.AcceptedOnlyForWholeFrame : Prop :=
  ∀ (p : Params) (phase : Phase) (seq : Bool) (bs : Octets) (r : Receiver), r.state = .idle →
    ((rxRun p phase seq bs r).1.getLast? = some .accepted →
      ∃ before c, bs = before ++ ctrl (expA p phase) c ∧ ∃ dup, accept p phase seq c = some (.ctrl, dup)) ∧
    ((rxRun p phase seq bs r).1.getLast? = some .rejected →
      ∃ before c, bs = before ++ [Config.FLAG, expA p phase, c] ∧ rejects p phase seq c = true)

/-- 42_data_receiver.md section 3 (R184 (a), (b); 40_codec.md R130): an information frame that arrives in
`AwaitData` reports `DataAccepted` for the expected sequence bit and `Duplicate` for the other, at its last octet
and not before, with its payload in the accumulator. -/
def Obligations.InfoFrameReported : Prop :=
  ∀ (p : Params) (seq dup : Bool) (payload : Octets) (r : Receiver),
    p.wf → payload.length ≤ p.maxPayload → r.state = .idle →
    (rxRun p .awaitData seq (infoOctets Config.A_TX (p.cI (seq ^^ dup)) payload) r).1 =
      List.replicate (4 + (stuff (payload ++ [bcc payload])).length) .needMore ++
        [if dup then .duplicate else .dataAccepted] ∧
    (rxRun p .awaitData seq (infoOctets Config.A_TX (p.cI (seq ^^ dup)) payload) r).2.value = payload

/-- 42_data_receiver.md section 3 (R184 (d)): while the data region is being received, the accumulator holds the
destuffed region, less a trailing unresolved escape. -/
def Obligations.AccumulatorIsDestuffedRegion : Prop :=
  ∀ (p : Params) (phase : Phase) (seq : Bool) (region : Octets) (r : Receiver),
    r.state = .payload → r.len = 0 → r.escPend = false →
    (∀ o ∈ (rxRun p phase seq region r).1, o = .needMore) →
    let r' := (rxRun p phase seq region r).2
    r'.state = .payload ∧
    (r'.escPend = false → destuff region = .ok r'.value) ∧
    (r'.escPend = true → ∃ before, region = before ++ [Config.ESC] ∧ destuff before = .ok r'.value)

/-! ## The host commands -/

/-- 70_reset_and_hazards.md R310: no command has a step while another is in progress. -/
def Obligations.CommandWhileBusyHasNoStep : Prop :=
  ∀ (i : Instr) (s : State), isCommand i = true → s.phase ≠ .none → exec i s = .refused .commandWhileBusy

/-- 43_arq_controller.md section 8 (R231, with the spec's decision D23): a command that is not legal in the role
and session state is answered `InvalidOperation`, and nothing else changes. -/
def Obligations.IllegalCommandAnswered : Prop :=
  ∀ (s : State), s.phase = .none →
    let t := { s with env := s.env.after 0 [.result (.err .invalidOperation)] }
    (s.session ≠ .closed → ∀ role port speed n k, exec (.open_ role port speed n k) s = .next t) ∧
    (s.session ≠ .open_ ∨ s.role ≠ .initiator ∨ s.failed = true → ∀ payload, exec (.send payload) s = .next t) ∧
    (s.session ≠ .open_ ∨ s.role ≠ .responder ∨ s.failed = true → exec .receive s = .next t) ∧
    (s.session ≠ .open_ → ¬(s.session = .closing ∧ s.role = .responder) →
      ∀ report, exec (.close report) s = .next t)

/-- 43_arq_controller.md section 3 (R203, with the spec's decisions D26, D28): a legal OPEN as initiator, channel
and write answered ok. That `TX_PLEN` stays is the model's choice, entry 21. -/
def Obligations.OpenInitiatorSendsSet : Prop :=
  ∀ (s : State) (port : Octets) (speed n k : Nat),
    s.phase = .none → s.session = .closed → s.nthAnswer 0 = .ok → s.nthAnswer 1 = .ok →
    let f : Octets := [0x7E, 0x03, 0x03, 0x00, 0x7E]
    exec (.open_ .initiator port speed n k) s = .next
      { s with
        role := .initiator, maxRetx := n, timeoutS := k, seq := false, retry := 0, failed := false
        session := .connecting, phase := .awaitUA, timerArmed := true
        txbuf := f ++ s.txbuf.drop 5, txlen := 5, rx := s.rx.searching
        stats := { framesSent := bump s.params 0, retransmissions := 0, timeouts := 0, errors := 0 }
        env := s.env.after 2 [.chanOpen port speed .ok, .chanWrite f .ok, .timerArm k] }

/-- 43_arq_controller.md section 3 (R207, with the spec's decisions D26, D28): a legal OPEN as responder, channel
answered ok; no frame is written and no timer armed. That `TXLEN` and `TX_PLEN` stay is the model's choice, entry
21. -/
def Obligations.OpenResponderWaits : Prop :=
  ∀ (s : State) (port : Octets) (speed n k : Nat),
    s.phase = .none → s.session = .closed → s.nthAnswer 0 = .ok →
    exec (.open_ .responder port speed n k) s = .next
      { s with
        role := .responder, maxRetx := n, timeoutS := k, seq := false, retry := 0, failed := false
        session := .connecting, phase := .awaitSET, rx := s.rx.searching
        stats := { framesSent := 0, retransmissions := 0, timeouts := 0, errors := 0 }
        env := s.env.after 1 [.chanOpen port speed .ok] }

/-- 43_arq_controller.md sections 2 and 3 (R206, R232, with the spec's decisions D32, D43): an OPEN whose channel
cannot be opened changes nothing; an OPEN whose SET is refused releases the channel and ends `Closed`. That `TX_PLEN`
stays in the second is the model's choice, entry 21. -/
def Obligations.OpenChannelErrors : Prop :=
  ∀ (s : State) (role : Role) (port : Octets) (speed n k : Nat),
    Inv s → s.phase = .none → s.session = .closed →
    (s.nthAnswer 0 = .error → exec (.open_ role port speed n k) s = .next
      { s with env := s.env.after 1 [.chanOpen port speed .error, .result (.err .channelError)] }) ∧
    (s.nthAnswer 0 = .ok → s.nthAnswer 1 = .error →
      let f : Octets := [0x7E, 0x03, 0x03, 0x00, 0x7E]
      exec (.open_ .initiator port speed n k) s = .next
      { s with
        role := .initiator, maxRetx := n, timeoutS := k, seq := false, retry := 0, failed := false
        session := .closed, phase := .none, txbuf := f ++ s.txbuf.drop 5, txlen := 5, rx := s.rx.searching
        stats := { framesSent := 0, retransmissions := 0, timeouts := 0, errors := bump s.params 0 }
        env := s.env.after 3 [.chanOpen port speed .ok, .chanWrite f .error, .chanClose (s.nthAnswer 2),
          .result (.err .channelError)] })

/-- 43_arq_controller.md R210: a legal SEND whose payload fits, the write answered ok. -/
def Obligations.SendWritesFrameAndWaits : Prop :=
  ∀ (s : State) (payload : Octets),
    s.phase = .none → s.session = .open_ → s.role = .initiator → s.failed = false →
    payload.length ≤ s.params.maxPayload → s.answer = .ok →
    let f := infoOctets Config.A_TX (s.params.cI s.seq) payload
    exec (.send payload) s = .next
      { s with
        txbuf := f ++ s.txbuf.drop f.length, txlen := f.length, txPlen := payload.length, retry := 0
        timerArmed := true, phase := .awaitAck, rx := s.rx.searching
        stats := { s.stats with framesSent := bump s.params s.stats.framesSent }
        env := s.env.after 1 [.chanWrite f .ok, .timerArm s.timeoutS] }

/-- 43_arq_controller.md R211: a SEND over `MAX_PAYLOAD` is answered before any input or output. -/
def Obligations.SendTooLargeAnswered : Prop :=
  ∀ (s : State) (payload : Octets),
    s.phase = .none → s.session = .open_ → s.role = .initiator → s.failed = false →
    s.params.maxPayload < payload.length →
    exec (.send payload) s = .next { s with env := s.env.after 0 [.result (.err .payloadTooLarge)] }

/-- 43_arq_controller.md section 2 (R225, R232, with the spec's decision D32): SEND and the initiator's CLOSE whose
write is refused. -/
def Obligations.RefusedWriteEndsCommand : Prop :=
  ∀ (s : State), Inv s → s.phase = .none → s.session = .open_ → s.role = .initiator → s.answer = .error →
    (∀ payload, s.failed = false → payload.length ≤ s.params.maxPayload →
      let f := infoOctets Config.A_TX (s.params.cI s.seq) payload
      exec (.send payload) s = .next
        { s with
          txbuf := f ++ s.txbuf.drop f.length, txlen := f.length, txPlen := payload.length, retry := 0
          failed := true, rx := s.rx.searching
          stats := { s.stats with errors := bump s.params s.stats.errors }
          env := s.env.after 1 [.chanWrite f .error, .result (.err .channelError)] }) ∧
    (∀ report,
      let f := ctrl Config.A_TX s.params.cDISC
      exec (.close report) s = .next
        { s with
          failed := false, session := .closed, retry := 0, report := report
          txbuf := f ++ s.txbuf.drop 5, txlen := 5, rx := s.rx.searching
          stats := { s.stats with errors := bump s.params s.stats.errors }
          env := s.env.after 2 [.chanWrite f .error, .chanClose (s.nthAnswer 1), .result (.err .channelError)] })

/-- 43_arq_controller.md R215: a legal RECEIVE starts its wait; nothing is written and no timer armed. -/
def Obligations.ReceiveStartsWait : Prop :=
  ∀ (s : State), s.phase = .none → s.session = .open_ → s.role = .responder → s.failed = false →
    exec .receive s = .next { s with phase := .awaitData, rx := s.rx.searching }

/-- 43_arq_controller.md R220: a legal CLOSE by the initiator, the write answered ok; legal after a failed SEND. -/
def Obligations.CloseInitiatorSendsDisc : Prop :=
  ∀ (s : State) (report : Bool),
    s.phase = .none → s.session = .open_ → s.role = .initiator → s.answer = .ok →
    let f := ctrl Config.A_TX s.params.cDISC
    exec (.close report) s = .next
      { s with
        failed := false, session := .closing, retry := 0, report := report
        txbuf := f ++ s.txbuf.drop 5, txlen := 5, timerArmed := true, phase := .awaitDISC, rx := s.rx.searching
        stats := { s.stats with framesSent := bump s.params s.stats.framesSent }
        env := s.env.after 1 [.chanWrite f .ok, .timerArm s.timeoutS] }

/-- 43_arq_controller.md sections 6 and 7 (R224, R230, with the spec's decisions D20, D27): a legal CLOSE by the
responder completes in its step, whichever way the adapter answers. -/
def Obligations.CloseResponderReleases : Prop :=
  ∀ (s : State) (report : Bool),
    s.phase = .none → s.role = .responder → s.session = .open_ ∨ s.session = .closing →
    (s.answer = .ok → exec (.close report) s = .next
      { s with
        failed := false, session := .closed
        env := s.env.after 1 [.chanClose .ok, .result (.ok (if report then .snapshot s.stats else .unit))] }) ∧
    (s.answer = .error → exec (.close report) s = .next
      { s with
        failed := false, session := .closed
        stats := { s.stats with errors := bump s.params s.stats.errors }
        env := s.env.after 1 [.chanClose .error, .result (.err .channelError)] })

/-- 43_arq_controller.md section 7 (R229, with the spec's decision D26): STATISTICS returns the counters and
changes nothing, in every session state. -/
def Obligations.StatisticsReturnsCounters : Prop :=
  ∀ (s : State), s.phase = .none →
    exec .statistics s = .next { s with env := s.env.after 0 [.result (.ok (.snapshot s.stats))] }

/-! ## The frames -/

/-- 43_arq_controller.md R204: UA with address `A_TX` in `AwaitUA`, whatever was received before it, short of a whole
header that waits for its closing flag (41_ctrl_receiver.md R160). -/
def Obligations.UaCompletesOpen : Prop :=
  ∀ (s : State), Inv s → s.params.wf → s.phase = .awaitUA → s.rx.state ≠ .bcc1 →
    exec (.ua Config.A_TX) s = .next
      { s with
        session := .open_, phase := .none, retry := 0, timerArmed := false
        rx := s.rx.searchingAfter Config.A_TX Config.C_UA .ctrl
        env := s.env.after 0 [.timerCancel, .result (.ok .connection)] }

/-- 43_arq_controller.md sections 2 and 3 (R208, R225, R232, with the spec's decisions D25, D32): SET in `AwaitSET`;
UA is written and counted, and the connection is open once it left; when it is refused the channel is released. Not
about a SET whose opening flag closes a header that waits for it (`RX_BCC1`). -/
def Obligations.SetAnsweredByUa : Prop :=
  ∀ (s : State), Inv s → s.params.wf → s.phase = .awaitSET → s.rx.state ≠ .bcc1 →
    let rx := s.rx.searchingAfter Config.A_TX Config.C_SET .ctrl
    (s.answer = .ok → exec (.set Config.A_TX) s = .next
      { s with
        session := .open_, phase := .none, rx := rx
        stats := { s.stats with framesSent := bump s.params s.stats.framesSent }
        env := s.env.after 1 [.chanWrite [0x7E, 0x03, 0x07, 0x04, 0x7E] .ok, .result (.ok .connection)] }) ∧
    (s.answer = .error → exec (.set Config.A_TX) s = .next
      { s with
        session := .closed, phase := .none, rx := rx
        stats := { s.stats with errors := bump s.params s.stats.errors }
        env := s.env.after 2 [.chanWrite [0x7E, 0x03, 0x07, 0x04, 0x7E] .error, .chanClose (s.nthAnswer 1),
          .result (.err .channelError)] })

/-- 43_arq_controller.md section 4 (R212; 30_encoding.md R91; the spec's decisions D5, D24): RR1 acknowledges the
frame with sequence bit 0 and RR0 the frame with sequence bit 1. -/
def Obligations.RrCompletesSend : Prop :=
  ∀ (s : State), Inv s → s.params.wf → s.phase = .awaitAck → s.rx.state ≠ .bcc1 →
    let done (c : Octet) : State :=
      { s with
        seq := !s.seq, phase := .none, retry := 0, timerArmed := false
        rx := s.rx.searchingAfter Config.A_TX c .ctrl
        env := s.env.after 0 [.timerCancel, .result (.ok (.bytesSent s.txPlen))] }
    (s.seq = false → exec (.rr1 Config.A_TX) s = .next (done s.params.cRR1)) ∧
    (s.seq = true → exec (.rr0 Config.A_TX) s = .next (done s.params.cRR0))

/-- 43_arq_controller.md sections 2 and 4 (R213, R226, R227, R232; the spec's decisions D6, D42): REJ of the frame
in flight resends the frame in `TXBUF` while the budget lasts, ends the SEND with `FAILED` when it is spent, and
ends it with `ChannelError` when the resend is refused. The reject's last two octets reach the new wait as noise
and a flag, or stay with the environment when the SEND has ended. -/
def Obligations.RejResendsOrFails : Prop :=
  ∀ (s : State) (i : Instr), Inv s → s.params.wf → s.phase = .awaitAck → s.rx.state ≠ .bcc1 →
    (s.seq = false ∧ i = .rej0 Config.A_TX ∨ s.seq = true ∧ i = .rej1 Config.A_TX) →
    let rest := [Config.A_TX ^^^ s.params.rejCode s.seq, Config.FLAG]
    (s.retry + 1 < s.maxRetx → s.answer = .ok → exec i s = .next
      { s with
        retry := s.retry + 1, rx := { s.rx.searching with a := Config.A_TX, state := .flag }
        stats := { s.stats with
          errors := bump s.params s.stats.errors, framesSent := bump s.params s.stats.framesSent
          retransmissions := bump s.params s.stats.retransmissions }
        env := s.env.after 1 [.timerCancel, .chanWrite s.txFrame .ok, .timerArm s.timeoutS] }) ∧
    (s.retry + 1 < s.maxRetx → s.answer = .error → exec i s = .next
      { s with
        retry := s.retry + 1, phase := .none, failed := true, timerArmed := false
        rx := { s.rx.searching with a := Config.A_TX }
        stats := { s.stats with errors := bump s.params (bump s.params s.stats.errors) }
        env := { s.env.after 1 [.timerCancel, .chanWrite s.txFrame .error, .result (.err .channelError)] with
          held := s.env.held ++ rest } }) ∧
    (s.maxRetx ≤ s.retry + 1 → exec i s = .next
      { s with
        retry := s.retry + 1, phase := .none, failed := true, timerArmed := false
        rx := { s.rx.searching with a := Config.A_TX }
        stats := { s.stats with errors := bump s.params (bump s.params s.stats.errors) }
        env := { s.env.after 0 [.timerCancel, .result (.err .maxRetransmissionsExceeded)] with
          held := s.env.held ++ rest } })

/-- 43_arq_controller.md sections 2 and 5 (R216, R225, R232, with the spec's decisions D19, D25, D32): DISC with
address `A_TX` in `AwaitData` is echoed with address `A_RX` and ends RECEIVE. -/
def Obligations.DiscEndsReceive : Prop :=
  ∀ (s : State), Inv s → s.params.wf → s.phase = .awaitData → s.rx.state ≠ .bcc1 → s.rx.state ≠ .payload →
    let rx := s.rx.searchingAfter Config.A_TX s.params.cDISC .ctrl
    let echo := ctrl s.params.aRX s.params.cDISC
    (s.answer = .ok → exec (.disc Config.A_TX) s = .next
      { s with
        session := .closing, phase := .none, rx := rx
        stats := { s.stats with framesSent := bump s.params s.stats.framesSent }
        env := s.env.after 1 [.chanWrite echo .ok, .result (.err .disconnected)] }) ∧
    (s.answer = .error → exec (.disc Config.A_TX) s = .next
      { s with
        failed := true, phase := .none, rx := rx
        stats := { s.stats with errors := bump s.params s.stats.errors }
        env := s.env.after 1 [.chanWrite echo .error, .result (.err .channelError)] })

/-- 43_arq_controller.md sections 2 and 5 (R217, R225, R232, with the spec's decisions D25, D32): an information frame
with the expected sequence bit is acknowledged and delivered; when the acknowledgement is refused nothing is delivered,
`SEQ` stays and `FAILED` is set. Not about a frame whose opening flag ends one that is being received (`RX_BCC1`,
`RX_PAYLOAD`). -/
def Obligations.ExpectedInfoFrameDelivered : Prop :=
  ∀ (s : State) (payload : Octets), Inv s → s.params.wf → s.phase = .awaitData →
    s.rx.state ≠ .bcc1 → s.rx.state ≠ .payload → payload.length ≤ s.params.maxPayload →
    let i : Instr := if s.seq then .i1 Config.A_TX payload else .i0 Config.A_TX payload
    let rx := { s.rx.searchingAfter Config.A_TX (s.params.cI s.seq) .info with
      acc := payload ++ bcc payload :: s.rx.acc.drop (payload.length + 1) }
    let ack := ctrl Config.A_TX (s.params.ackCode s.seq)
    (s.answer = .ok → exec i s = .next
      { s with
        seq := !s.seq, phase := .none, rx := rx
        stats := { s.stats with framesSent := bump s.params s.stats.framesSent }
        env := s.env.after 1 [.chanWrite ack .ok, .result (.ok (.payload payload))] }) ∧
    (s.answer = .error → exec i s = .next
      { s with
        failed := true, phase := .none, rx := rx
        stats := { s.stats with errors := bump s.params s.stats.errors }
        env := s.env.after 1 [.chanWrite ack .error, .result (.err .channelError)] })

/-- 43_arq_controller.md sections 2 and 5 (R218, R225, R232, with the spec's decisions D17, D25, D32): an information
frame with the other sequence bit is acknowledged again and not delivered; the wait goes on, or ends in `ChannelError`
with `FAILED` when the acknowledgement is refused. -/
def Obligations.DuplicateInfoFrameAcknowledgedOnly : Prop :=
  ∀ (s : State) (payload : Octets), Inv s → s.params.wf → s.phase = .awaitData →
    s.rx.state ≠ .bcc1 → s.rx.state ≠ .payload → payload.length ≤ s.params.maxPayload →
    let i : Instr := if s.seq then .i0 Config.A_TX payload else .i1 Config.A_TX payload
    let rx := { s.rx.searchingAfter Config.A_TX (s.params.cI (!s.seq)) .info with
      acc := payload ++ bcc payload :: s.rx.acc.drop (payload.length + 1) }
    let ack := ctrl Config.A_TX (s.params.ackCode (!s.seq))
    (s.answer = .ok → exec i s = .next
      { s with
        rx := rx
        stats := { s.stats with framesSent := bump s.params s.stats.framesSent }
        env := s.env.after 1 [.chanWrite ack .ok] }) ∧
    (s.answer = .error → exec i s = .next
      { s with
        failed := true, phase := .none, rx := rx
        stats := { s.stats with errors := bump s.params s.stats.errors }
        env := s.env.after 1 [.chanWrite ack .error, .result (.err .channelError)] })

/-- 43_arq_controller.md sections 2 and 5 (R219, R225, R232, with the spec's decisions D17, D25, D32): an information
frame of either sequence bit with a checksum2 that does not match is counted and answered with the reject of the
expected bit; the wait goes on, or ends in `ChannelError` with `FAILED`, counted too, when the reject is refused. -/
def Obligations.DamagedInfoFrameRejected : Prop :=
  ∀ (s : State) (bit : Bool) (payload : Octets) (chk : Octet), Inv s → s.params.wf → s.phase = .awaitData →
    s.rx.state ≠ .bcc1 → s.rx.state ≠ .payload → payload.length ≤ s.params.maxPayload → bcc payload ≠ chk →
    let c := s.params.cI bit
    let damaged := [Config.FLAG, Config.A_TX, c, Config.A_TX ^^^ c] ++ stuff (payload ++ [chk]) ++ [Config.FLAG]
    let rx := { s.rx.searchingAfter Config.A_TX c .info with
      acc := payload ++ chk :: s.rx.acc.drop (payload.length + 1) }
    let rej := ctrl Config.A_TX (s.params.rejCode s.seq)
    (s.answer = .ok → deliver damaged s = .next
      { s with
        rx := rx
        stats := { s.stats with
          framesSent := bump s.params s.stats.framesSent, errors := bump s.params s.stats.errors }
        env := s.env.after 1 [.chanWrite rej .ok] }) ∧
    (s.answer = .error → deliver damaged s = .next
      { s with
        failed := true, phase := .none, rx := rx
        stats := { s.stats with errors := bump s.params (bump s.params s.stats.errors) }
        env := s.env.after 1 [.chanWrite rej .error, .result (.err .channelError)] })

/-- 43_arq_controller.md section 6 (R221, R230, with the spec's decisions D25, D27, D32, D44): the disconnect echo ends
CLOSE with the final acknowledgement; the snapshot counts it. The answer of `ChanClose` is not read. -/
def Obligations.DiscEchoCompletesClose : Prop :=
  ∀ (s : State), Inv s → s.params.wf → s.phase = .awaitDISC → s.rx.state ≠ .bcc1 →
    let rx := s.rx.searchingAfter s.params.aRX s.params.cDISC .ctrl
    let final := ctrl s.params.aRX Config.C_UA
    let counts := { s.stats with framesSent := bump s.params s.stats.framesSent }
    (s.answer = .ok → exec (.disc s.params.aRX) s = .next
      { s with
        session := .closed, phase := .none, retry := 0, timerArmed := false, rx := rx, stats := counts
        env := s.env.after 2 [.timerCancel, .chanWrite final .ok, .chanClose (s.nthAnswer 1),
          .result (.ok (if s.report then .snapshot counts else .unit))] }) ∧
    (s.answer = .error → exec (.disc s.params.aRX) s = .next
      { s with
        session := .closed, phase := .none, retry := 0, timerArmed := false, rx := rx
        stats := { s.stats with errors := bump s.params s.stats.errors }
        env := s.env.after 2 [.timerCancel, .chanWrite final .error, .chanClose (s.nthAnswer 1),
          .result (.err .channelError)] })

/-- 43_arq_controller.md sections 1 and 8 (R202, R236), 30_encoding.md R93, with the spec's decision D18: an octet
whose outcome is `NeedMore` or `Resync` changes the receiver's registers only, never the timer; and so does a
well-formed frame that the wait in progress does not accept, whose closing flag is kept as a possible opening flag. -/
def Obligations.UnacceptableFrameIsNoise : Prop :=
  (∀ (s : State) (b : Octet), s.phase ≠ .none →
    let one := rxStep s.params s.phase s.seq b s.rx
    one.1 = .needMore ∨ one.1 = .resync → rxByte b s = .next { s with rx := one.2 }) ∧
  ∀ (s : State) (i : Instr) (a c : Octet), Inv s → s.params.wf → s.phase ≠ .none →
    s.rx.state ≠ .bcc1 → s.rx.state ≠ .payload → i.wf s.params = true → frameHeader s.params i = some (a, c) →
    a ≠ expA s.params s.phase ∨
      (accept s.params s.phase s.seq c = none ∧ rejects s.params s.phase s.seq c = false) →
    ∃ rx : Receiver, exec i s = .next { s with rx := rx } ∧ rx.state = .flag ∧ rx.len = 0

/-- 20_memory.md section 1 (R62, with the spec's decision D39; the held octets are entry 7): a frame that arrives
while no command is in progress is not read; its octets stay with the environment. -/
def Obligations.FrameBetweenCommandsIsHeld : Prop :=
  ∀ (s : State) (i : Instr) (bs : Octets), s.phase = .none → encode s.params i = .wire bs →
    exec i s = .next { s with env := { s.env with held := s.env.held ++ bs } }

/-! ## The other events -/

/-- 60_exceptions.md sections 2, 3 and 5 (R261, R272, R276, R279; 43_arq_controller.md R226, R232; the spec's decisions
D6, D25, D30, D32): an expiry in a timed wait with budget left is counted and repeats the frame in `TXBUF`. When it
left, the timer is armed again and the receiver restarts; when it is refused, OPEN, SEND or CLOSE ends in
`ChannelError`, with `RETRY` and `TIMEOUTS` counted all the same. `SEQ` stays. -/
def Obligations.ExpiryResendsFrame : Prop :=
  ∀ (s : State) (rest : List Event), Inv s → s.env.inputs = .timerExpiry :: rest → s.timerArmed = true →
    s.retry + 1 < s.maxRetx →
    let refused (ses : Session) (failed : Bool) (n : Nat) (close : List Action) : State :=
      { s with
        retry := s.retry + 1, phase := .none, timerArmed := false, session := ses, failed := failed
        rx := s.rx.searching
        stats := { s.stats with
          timeouts := bump s.params s.stats.timeouts, errors := bump s.params s.stats.errors }
        env := { s.env.after n ([.chanWrite s.txFrame .error] ++ close ++ [.result (.err .channelError)]) with
          inputs := rest } }
    (s.answer = .ok → step s = .next
      { s with
        retry := s.retry + 1, rx := s.rx.searching
        stats := { s.stats with
          timeouts := bump s.params s.stats.timeouts, framesSent := bump s.params s.stats.framesSent
          retransmissions := bump s.params s.stats.retransmissions }
        env := { s.env.after 1 [.chanWrite s.txFrame .ok, .timerArm s.timeoutS] with inputs := rest } }) ∧
    (s.answer = .error → s.phase = .awaitUA ∨ s.phase = .awaitDISC → step s = .next
      (refused .closed s.failed 2 [.chanClose (s.nthAnswer 1)])) ∧
    (s.answer = .error → s.phase = .awaitAck → step s = .next (refused s.session true 1 []))

/-- 43_arq_controller.md section 2 (R227; 60_exceptions.md R265; the spec's decisions D6, D21, D22): an expiry that
spends the budget writes nothing more and ends OPEN, SEND or CLOSE, each in its way. -/
def Obligations.ExpirySpendsBudget : Prop :=
  ∀ (s : State) (rest : List Event), Inv s → s.env.inputs = .timerExpiry :: rest → s.maxRetx ≤ s.retry + 1 →
    let spent (ses : Session) (failed : Bool) (n : Nat) (acts : List Action) : State :=
      { s with
        retry := s.retry + 1, phase := .none, timerArmed := false, session := ses, failed := failed
        rx := s.rx.searching
        stats := { s.stats with
          timeouts := bump s.params s.stats.timeouts, errors := bump s.params s.stats.errors }
        env := { s.env.after n acts with inputs := rest } }
    (s.phase = .awaitUA → step s = .next
      (spent .closed s.failed 1 [.chanClose s.answer, .result (.err .peerUnreachable)])) ∧
    (s.phase = .awaitAck → step s = .next
      (spent s.session true 0 [.result (.err .maxRetransmissionsExceeded)])) ∧
    (s.phase = .awaitDISC → step s = .next
      (spent .closed s.failed 1 [.chanClose s.answer, .result (.err .maxRetransmissionsExceeded)]))

/-- 60_exceptions.md section 2 (R272; 43_arq_controller.md R209; the spec's decision D30): an expiry while no timer
is armed changes nothing; with the invariant this is every expiry between commands and in the untimed waits. -/
def Obligations.StaleExpiryIgnored : Prop :=
  ∀ (s : State) (rest : List Event), s.env.inputs = .timerExpiry :: rest →
    (s.timerArmed = false → step s = .next { s with env := { s.env with inputs := rest } }) ∧
    (Inv s → s.phase = .none ∨ s.phase = .awaitSET ∨ s.phase = .awaitData → s.timerArmed = false)

/-- 43_arq_controller.md section 2 (R232; 60_exceptions.md R266; the spec's decision D32): a channel error during a
wait cancels the timer if it is armed and ends the command: OPEN and CLOSE release the channel, SEND and RECEIVE
leave `FAILED`. -/
def Obligations.ChannelErrorEndsWait : Prop :=
  ∀ (s : State) (rest : List Event), Inv s → s.env.inputs = .channelError :: rest → s.phase ≠ .none →
    let cancel := if s.timerArmed then [Action.timerCancel] else []
    let stats := { s.stats with errors := bump s.params s.stats.errors }
    (s.session = .open_ → step s = .next
      { s with
        failed := true, phase := .none, timerArmed := false, rx := s.rx.searching, stats := stats
        env := { s.env.after 0 (cancel ++ [.result (.err .channelError)]) with inputs := rest } }) ∧
    (s.session ≠ .open_ → step s = .next
      { s with
        session := .closed, phase := .none, timerArmed := false, rx := s.rx.searching, stats := stats
        env := { s.env.after 1 (cancel ++ [.chanClose s.answer, .result (.err .channelError)]) with
          inputs := rest } })

/-- 10_state.md section 8 (R47) and 70_reset_and_hazards.md R302, with the spec's decision D29: `Reset` in any
state, also during a command, gives each element its table value without an action or a result. The unspecified
elements take the parameters `powerOn` (entry 3): any values. -/
def Obligations.ResetEventGivesResetValues : Prop :=
  ∀ (s : State) (rest : List Event), s.env.inputs = .reset :: rest →
    ∃ t : State, step s = .next t ∧
      t.session = .closed ∧ t.failed = false ∧ t.phase = .none ∧ t.seq = false ∧ t.retry = 0 ∧
      t.timerArmed = false ∧ t.txlen = 0 ∧ t.txPlen = 0 ∧
      t.rx.state = .idle ∧ t.rx.dup = false ∧ t.rx.escPend = false ∧ t.rx.len = 0 ∧
      t.stats = { framesSent := 0, retransmissions := 0, timeouts := 0, errors := 0 } ∧
      t.env = { s.env with inputs := rest } ∧ t.params = s.params

/-- 70_reset_and_hazards.md section 1 (R301, with the spec's decision D29): the state after reset, for any
parameters; the machine's own reset state is one of them, with the defaults of entries 1 to 3. -/
def Obligations.ResetStateValues : Prop :=
  (∀ (p : Params) (e : Env),
    let t := State.resetOf p e
    t.session = .closed ∧ t.failed = false ∧ t.phase = .none ∧ t.seq = false ∧ t.retry = 0 ∧
      t.timerArmed = false ∧ t.txlen = 0 ∧ t.txPlen = 0 ∧ t.rx.state = .idle ∧ t.rx.dup = false ∧
      t.rx.escPend = false ∧ t.rx.len = 0 ∧
      t.stats = { framesSent := 0, retransmissions := 0, timeouts := 0, errors := 0 }) ∧
  ∃ p e, State.reset = State.resetOf p e ∧ p.wf

/-! ## The machine -/

/-- A step takes the oldest event; when it is a word that decodes to `i`, the step is `exec i` at the state without
that event. -/
def Obligations.StepRunsDecodedInstruction : Prop :=
  ∀ (s : State) (w : Words) (rest : List Event) (i : Instr),
    s.env.inputs = .word w :: rest → decode s.params w = .ok i →
    step s = exec i { s with env := { s.env with inputs := rest } }

/-- What a step does with no event, with octets that are no frame, with a command word that is none, and with the
octets the environment held back (20_memory.md R61, R62; 30_encoding.md R93; entries 5, 7, 10, 16). -/
def Obligations.StepOnOtherInputs : Prop :=
  ∀ (s : State) (rest : List Event),
    let t := { s with env := { s.env with inputs := rest } }
    (s.env.inputs = [] → step s = .next s) ∧
    (∀ bs e, s.env.inputs = .word (.wire bs) :: rest → decode s.params (.wire bs) = .error e →
      step s = deliver bs t) ∧
    (∀ code ops e, s.env.inputs = .word (.command code ops) :: rest →
      decode s.params (.command code ops) = .error e → step s = .refused .notACommand) ∧
    (∀ b, s.env.inputs = .rxByte b :: rest → s.phase = .none →
      step s = .next { t with env := { t.env with held := s.env.held ++ [b] } }) ∧
    (∀ b bs, s.env.inputs = .heldDelivered :: rest → s.phase ≠ .none → s.env.held = b :: bs →
      step s = rxByte b { t with env := { t.env with held := bs } }) ∧
    (∀ b bs, s.env.inputs = .heldLost :: rest → s.env.held = b :: bs →
      step s = .next { t with env := { t.env with held := bs } })

/-- A run of octets in one word is the same as its octets one event after another (entry 6), whether or not it is
a frame. -/
def Obligations.WireWordIsItsOctets : Prop :=
  ∀ (s : State) (bs : Octets) (rest : List Event),
    step { s with env := { s.env with inputs := .word (.wire bs) :: rest } } =
      Host.Core.run Sys2Proof.core bs.length
        { s with env := { s.env with inputs := bs.map Event.rxByte ++ rest } }

/-- The invariant of 10_state.md R31 to R37 and R50 holds after reset, for every parameter set whose reset contents
fit the buffers. -/
def Obligations.InvariantAtReset : Prop :=
  (∀ (p : Params) (e : Env), p.buffersFit → Inv (State.resetOf p e)) ∧ Inv State.reset

/-- Every step keeps the invariant, whatever the event, the environment's answers and the parameters. -/
def Obligations.StepKeepsInvariant : Prop :=
  ∀ s t : State, Inv s → step s = .next t → Inv t

/-- No step from a state that satisfies the invariant ends in a fault (43_arq_controller.md R202: "No other pair
can occur"), and it is refused only for a command while busy or a word that is no command. -/
def Obligations.StepNeverFaults : Prop :=
  ∀ s : State, Inv s → SafeStep s ∧
    ∀ r, step s = .refused r →
      ∃ w rest, s.env.inputs = .word w :: rest ∧
        ((r = .commandWhileBusy ∧ s.phase ≠ .none ∧ ∃ i, decode s.params w = .ok i ∧ isCommand i = true) ∨
         (r = .notACommand ∧ ∃ code ops e, w = .command code ops ∧ decode s.params w = .error e))

/-- 10_state.md section 4 (R28) and R49 (3), with the spec's decision D28: a step that changes `SEQ` is an OPEN, a
reset, or one that ends a SEND with success or delivers a payload; in those last two it emits exactly one result. -/
def Obligations.SequenceBitChangesOnSuccessOnly : Prop :=
  ∀ (s t : State) (e : Event) (rest : List Event), s.env.inputs = e :: rest → step s = .next t →
    t.seq ≠ s.seq → e ≠ .reset → ¬isOpenEvent s.params e →
    ∃ acts, t.env.actions = s.env.actions ++ acts ∧
      ((s.phase = .awaitAck ∧ resultsOf acts = [.ok (.bytesSent s.txPlen)]) ∨
       (s.phase = .awaitData ∧ ∃ payload, resultsOf acts = [.ok (.payload payload)]))

/-- 10_state.md section 2 (R22, R23, R24): the configuration registers are written by OPEN only (and set by reset),
and no step changes a parameter. -/
def Obligations.ConfigurationWrittenByOpenOnly : Prop :=
  ∀ (s t : State), step s = .next t →
    t.params = s.params ∧
    ∀ e rest, s.env.inputs = e :: rest → e ≠ .reset → ¬isOpenEvent s.params e →
      t.role = s.role ∧ t.maxRetx = s.maxRetx ∧ t.timeoutS = s.timeoutS

/-- 10_state.md section 6 (R44, with the spec's decisions D25, D26): no step but an OPEN or a reset makes a counter
smaller, and with `STAT_W` bits none passes `2^STAT_W - 1`. -/
def Obligations.CountersNeverFall : Prop :=
  ∀ (s t : State) (e : Event) (rest : List Event), s.env.inputs = e :: rest → step s = .next t →
    (e ≠ .reset → ¬isOpenEvent s.params e →
      s.stats.framesSent ≤ t.stats.framesSent ∧ s.stats.retransmissions ≤ t.stats.retransmissions ∧
      s.stats.timeouts ≤ t.stats.timeouts ∧ s.stats.errors ≤ t.stats.errors) ∧
    ∀ w, s.params.statW = some w →
      s.stats.framesSent < 2 ^ w → s.stats.retransmissions < 2 ^ w → s.stats.timeouts < 2 ^ w →
      s.stats.errors < 2 ^ w →
      t.stats.framesSent < 2 ^ w ∧ t.stats.retransmissions < 2 ^ w ∧ t.stats.timeouts < 2 ^ w ∧
      t.stats.errors < 2 ^ w

/-- A step only adds actions after those of earlier steps (20_memory.md R71), and it uses one answer of the environment
for each channel action it emits (00_scope.md R11 says that the environment answers in the same step). That the
actions, the answers and their count are fields of State is the model's choice: entries 4 and 17 (DESIGN CHOICE). -/
def Obligations.ActionsAreAppended : Prop :=
  ∀ (s t : State), step s = .next t →
    ∃ acts, t.env.actions = s.env.actions ++ acts ∧
      t.env.asks = s.env.asks + acts.countP isChannelAction ∧
      t.env.answers = s.env.answers.drop (acts.countP isChannelAction)

/-- 30_encoding.md section 6 (R98) and 43_arq_controller.md R200: a command ends with exactly one result. A step
emits one result exactly when it ends a command: a wait that was in progress is over, or a command completed in
its own step; a reset emits none (the spec's decision D29). The model's own in part: that no other event between waits
emits anything rests on entries 7 (octets are held) and 8 (a channel error changes nothing, DEDUCED). -/
def Obligations.OneResultPerCommand : Prop :=
  ∀ (s t : State) (e : Event) (rest : List Event), s.env.inputs = e :: rest → step s = .next t →
    ∃ acts, t.env.actions = s.env.actions ++ acts ∧
      (e = .reset → acts = []) ∧
      (e ≠ .reset → s.phase ≠ .none →
        (resultsOf acts).length = if t.phase = .none then 1 else 0) ∧
      (s.phase = .none → isCommandEvent s.params e →
        (resultsOf acts).length = if t.phase = .none then 1 else 0) ∧
      (s.phase = .none → ¬isCommandEvent s.params e → acts = [])

/-! ## Two engines -/

/-- 43_arq_controller.md sections 3 (R203, R204, R207, R208): the SET of an initiator's OPEN, delivered to a
responder in OPEN, and its UA delivered back, open both ends. -/
def Obligations.HandshakeOpensBothEnds : Prop :=
  ∀ (i r : State) (port : Octets) (speed n k : Nat),
    Inv i → Inv r → i.params = r.params → i.params.wf → i.phase = .none → i.session = .closed →
    i.nthAnswer 0 = .ok → i.nthAnswer 1 = .ok → r.phase = .awaitSET → r.rx.state = .idle → r.answer = .ok →
    ∃ i1 r1 i2 : State,
      exec (.open_ .initiator port speed n k) i = .next i1 ∧ deliver i1.txFrame r = .next r1 ∧
      deliver (ctrl Config.A_TX Config.C_UA) i1 = .next i2 ∧
      r1.env.actions = r.env.actions ++
        [.chanWrite (ctrl Config.A_TX Config.C_UA) .ok, .result (.ok .connection)] ∧
      i2.env.actions = i1.env.actions ++ [.timerCancel, .result (.ok .connection)] ∧
      i2.session = .open_ ∧ r1.session = .open_ ∧ i2.phase = .none ∧ r1.phase = .none ∧
      i2.seq = false ∧ r1.seq = r.seq

/-- 43_arq_controller.md sections 4 and 5 (R210, R212, R217): a payload sent by the initiator and carried without
loss is delivered by the responder unchanged, and its acknowledgement completes the SEND; both sequence bits
toggle. -/
def Obligations.SentPayloadIsDelivered : Prop :=
  ∀ (i r : State) (payload : Octets),
    Inv i → Inv r → i.params = r.params → i.params.wf → i.phase = .none → i.session = .open_ →
    i.role = .initiator → i.failed = false → r.phase = .awaitData → r.rx.state = .idle → i.seq = r.seq →
    payload.length ≤ i.params.maxPayload → i.answer = .ok → r.answer = .ok →
    ∃ i1 r1 i2 : State, ∃ ack : Octets,
      exec (.send payload) i = .next i1 ∧ deliver i1.txFrame r = .next r1 ∧ deliver ack i1 = .next i2 ∧
      r1.env.actions = r.env.actions ++ [.chanWrite ack .ok, .result (.ok (.payload payload))] ∧
      i2.env.actions = i1.env.actions ++ [.timerCancel, .result (.ok (.bytesSent payload.length))] ∧
      i2.seq = !i.seq ∧ r1.seq = !r.seq ∧ i2.phase = .none ∧ r1.phase = .none

/-- 43_arq_controller.md section 5 (R218) and the source's scenario S6 of 95_test_vectors.md: when the
acknowledgement of a delivered frame is lost and the frame is sent again, the responder in its next RECEIVE sends
the same acknowledgement again, delivers nothing, and keeps waiting. -/
def Obligations.RepeatedFrameDeliveredOnce : Prop :=
  ∀ (r : State) (payload : Octets),
    Inv r → r.params.wf → r.phase = .awaitData → r.rx.state = .idle →
    payload.length ≤ r.params.maxPayload → r.nthAnswer 0 = .ok → r.nthAnswer 1 = .ok →
    let f := infoOctets Config.A_TX (r.params.cI r.seq) payload
    let ack := ctrl Config.A_TX (r.params.ackCode r.seq)
    ∃ r1 r2 r3 : State,
      deliver f r = .next r1 ∧ exec .receive r1 = .next r2 ∧ deliver f r2 = .next r3 ∧
      r1.env.actions = r.env.actions ++ [.chanWrite ack .ok, .result (.ok (.payload payload))] ∧
      r3.env.actions = r1.env.actions ++ [.chanWrite ack .ok] ∧
      r3.seq = !r.seq ∧ r3.phase = .awaitData
end

