-- ==== Sys2Proof/Laws/Codec.lean ====
section
/-! SUPPORT. The laws of the Frame Codec's functions that later proofs cite (40_codec.md R120 to R129). -/

namespace Sys2Proof

@[simp] theorem bcc_nil : bcc [] = 0 := rfl

theorem bcc_append_singleton (s : Octets) (b : Octet) : bcc (s ++ [b]) = bcc s ^^^ b := by
  simp [bcc, List.foldl_append]

theorem foldl_xor_start (s : Octets) (a : Octet) : s.foldl (· ^^^ ·) a = a ^^^ bcc s := by
  induction s generalizing a with
  | nil => simp [bcc]
  | cons b t ih =>
    simp only [bcc, List.foldl_cons]
    rw [ih (a ^^^ b), ih (0 ^^^ b)]
    simp [BitVec.xor_assoc]

theorem bcc_cons (b : Octet) (s : Octets) : bcc (b :: s) = b ^^^ bcc s := by
  rw [show bcc (b :: s) = s.foldl (· ^^^ ·) (0 ^^^ b) from rfl, foldl_xor_start]
  simp

@[simp] theorem isReserved_iff (b : Octet) : isReserved b = true ↔ b = Config.FLAG ∨ b = Config.ESC := by
  simp [isReserved]

theorem stuffOctet_reserved {b : Octet} (h : b = Config.FLAG ∨ b = Config.ESC) :
    stuffOctet b = [Config.ESC, b ^^^ Config.STUFF_MASK] := by
  rw [stuffOctet, if_pos ((isReserved_iff b).mpr h)]

theorem stuffOctet_plain {b : Octet} (hf : b ≠ Config.FLAG) (he : b ≠ Config.ESC) : stuffOctet b = [b] := by
  rw [stuffOctet, if_neg (by simp [hf, he])]

/-- The two shapes of a stuffed octet, the shape a proof splits on. -/
theorem stuffOctet_cases (b : Octet) :
    ((b = Config.FLAG ∨ b = Config.ESC) ∧ stuffOctet b = [Config.ESC, b ^^^ Config.STUFF_MASK]) ∨
    (b ≠ Config.FLAG ∧ b ≠ Config.ESC ∧ stuffOctet b = [b]) := by
  by_cases hf : b = Config.FLAG
  · exact .inl ⟨.inl hf, stuffOctet_reserved (.inl hf)⟩
  · by_cases he : b = Config.ESC
    · exact .inl ⟨.inr he, stuffOctet_reserved (.inr he)⟩
    · exact .inr ⟨hf, he, stuffOctet_plain hf he⟩

@[simp] theorem stuff_nil : stuff [] = [] := rfl

@[simp] theorem stuff_cons (b : Octet) (t : Octets) : stuff (b :: t) = stuffOctet b ++ stuff t := rfl

theorem stuff_append (s t : Octets) : stuff (s ++ t) = stuff s ++ stuff t := by
  induction s with
  | nil => rfl
  | cons b s ih => simp [ih]

theorem flag_notMem_stuffOctet (b : Octet) : Config.FLAG ∉ stuffOctet b := by
  rcases stuffOctet_cases b with ⟨rfl | rfl, h⟩ | ⟨hf, -, h⟩
  · rw [h]; decide
  · rw [h]; decide
  · rw [h, List.mem_singleton]; exact fun hb => hf hb.symm

theorem stuffOctet_ne_nil (b : Octet) : stuffOctet b ≠ [] := by
  rcases stuffOctet_cases b with ⟨-, h⟩ | ⟨-, -, h⟩ <;> simp [h]

/-- One octet of a stuffed region goes through the destuffing loop as itself. -/
theorem destuffGo_stuffOctet (b : Octet) (r out : Octets) :
    destuffGo (stuffOctet b ++ r) false out = destuffGo r false (out ++ [b]) := by
  rcases stuffOctet_cases b with ⟨-, h⟩ | ⟨-, he, h⟩
  · simp [h, destuffGo]
  · simp [h, destuffGo, he]

/-- A stuffed region goes through the destuffing loop as itself (40_codec.md R125). -/
theorem destuffGo_stuff (s r out : Octets) : destuffGo (stuff s ++ r) false out = destuffGo r false (out ++ s) := by
  induction s generalizing out with
  | nil => simp
  | cons b s ih => rw [stuff_cons, List.append_assoc, destuffGo_stuffOctet, ih]; simp

theorem flag_notMem_stuff (s : Octets) : Config.FLAG ∉ stuff s := by
  induction s with
  | nil => simp
  | cons b s ih => rw [stuff_cons, List.mem_append]; exact fun h => h.elim (flag_notMem_stuffOctet b) ih

theorem bcc_append (s t : Octets) : bcc (s ++ t) = bcc s ^^^ bcc t := by
  induction s with
  | nil => simp
  | cons b s ih => rw [List.cons_append, bcc_cons, bcc_cons, ih, BitVec.xor_assoc]

/-- What a data region parses to (40_codec.md R129). -/
theorem destuffPayload_dataRegion (payload : Octets) :
    destuffPayload (dataRegion payload) = .ok (payload, bcc payload) := by
  have h := destuffGo_stuff (payload ++ [bcc payload]) [] []
  simp only [List.append_nil, List.nil_append, destuffGo] at h
  simp [destuffPayload, destuff, dataRegion, h]

theorem ctrl_length (a c : Octet) : (ctrl a c).length = 5 := rfl

theorem dataRegion_ne_nil (payload : Octets) : dataRegion payload ≠ [] := by
  rw [dataRegion, stuff_append]
  simp [stuffOctet_ne_nil]

theorem buildDataFrame_of_fits {p : Params} {payload : Octets} (h : payload.length ≤ p.maxPayload) (s : Bool)
    (a : Octet) : buildDataFrame p payload s a = .ok (infoFrame a (p.cI s) payload) := by
  rw [buildDataFrame, if_neg (by omega)]

theorem buildDataFrame_of_tooLarge {p : Params} {payload : Octets} (h : p.maxPayload < payload.length) (s : Bool)
    (a : Octet) : buildDataFrame p payload s a = .error .payloadTooLarge := by
  rw [buildDataFrame, if_pos h]

/-- What a built frame is: the payload fits and the frame is the header, the region and the flag. -/
theorem buildDataFrame_ok {p : Params} {payload f : Octets} {s : Bool} {a : Octet}
    (h : buildDataFrame p payload s a = .ok f) :
    payload.length ≤ p.maxPayload ∧ f = infoFrame a (p.cI s) payload := by
  by_cases hl : p.maxPayload < payload.length
  · rw [buildDataFrame_of_tooLarge hl] at h; cases h
  · rw [buildDataFrame_of_fits (by omega)] at h
    exact ⟨by omega, (Except.ok.inj h).symm⟩

/-! ## Whole-frame decoding -/

theorem acceptIfWf_some {p : Params} {i : Instr} (h : i.wf p = true) : acceptIfWf p (some i) = .ok i := by
  rw [acceptIfWf, if_pos h]

/-- What an accepted candidate is. -/
theorem acceptIfWf_ok {p : Params} {o : Option Instr} {i : Instr} (h : acceptIfWf p o = .ok i) :
    o = some i ∧ i.wf p = true := by
  cases o with
  | none => simp [acceptIfWf] at h
  | some j =>
    by_cases hj : j.wf p = true
    · rw [acceptIfWf_some hj] at h
      cases h; exact ⟨rfl, hj⟩
    · simp [acceptIfWf, hj] at h

theorem decodeWire_ctrl (p : Params) (a c : Octet) :
    decodeWire p (ctrl a c) = acceptIfWf p (controlInstr p a c) := by
  simp [decodeWire, ctrl, decodeControl]

theorem decodeWire_infoFrame (p : Params) (a c : Octet) (payload : Octets) :
    decodeWire p (infoFrame a c payload) = acceptIfWf p (infoInstr p a c payload) := by
  obtain ⟨y, t, h⟩ := List.exists_cons_of_ne_nil (dataRegion_ne_nil payload)
  have hd : decodeWire p (infoFrame a c payload) =
      decodeInfo p Config.FLAG a c (a ^^^ c) (dataRegion payload ++ [Config.FLAG]) := by
    simp only [infoFrame, h, List.cons_append, List.nil_append]
    cases t <;> rfl
  have hf : Config.FLAG ∉ dataRegion payload := flag_notMem_stuff _
  have hs : stuff (payload ++ [bcc payload]) = dataRegion payload := rfl
  rw [hd]
  simp [decodeInfo, hf, destuffPayload_dataRegion, hs]

end Sys2Proof
end

