-- ==== Sys2Proof/Laws/Params.lean ====
section
/-! SUPPORT. What a well-formed parameter set (00_scope.md R9) gives the receiver: no header octet and no header
checksum of a wait is the flag. -/

namespace Sys2Proof.Machine

variable {p : Params}

theorem wf_controlCode_ne_flag (h : p.wf) {c : Octet} (hc : c ∈ p.controlCodes) : c ≠ Config.FLAG :=
  h.2.2.2.1 c hc

theorem wf_pair_ne_flag (h : p.wf) {a c : Octet} (hp : (a, c) ∈ p.pairs) : a ^^^ c ≠ Config.FLAG :=
  h.2.2.2.2 (a, c) hp

theorem wf_cI_ne_flag (h : p.wf) (s : Bool) : p.cI s ≠ Config.FLAG := by
  cases s
  · simp [Params.cI, Config.C_I0, Config.FLAG]
  · exact h.2.2.1

theorem wf_ackCode_mem (s : Bool) : p.ackCode s ∈ p.controlCodes := by
  cases s <;> simp [Params.ackCode, Params.cRR, Params.controlCodes]

theorem wf_rejCode_mem (s : Bool) : p.rejCode s ∈ p.controlCodes := by
  cases s <;> simp [Params.rejCode, Params.cREJ, Params.controlCodes]

theorem wf_cDISC_mem : p.cDISC ∈ p.controlCodes := by simp [Params.controlCodes]

theorem wf_expA_ne_flag (h : p.wf) (phase : Phase) : expA p phase ≠ Config.FLAG := by
  cases phase <;> first | exact h.2.1 | (simp [expA, Config.A_TX, Config.FLAG])

/-- The flag is never an acceptable control octet. -/
theorem wf_accept_flag (h : p.wf) (phase : Phase) (seq : Bool) : accept p phase seq Config.FLAG = none := by
  have hd := wf_controlCode_ne_flag h wf_cDISC_mem
  have ha := wf_controlCode_ne_flag h (wf_ackCode_mem seq)
  cases phase <;> simp only [accept]
  · simp [Config.C_UA, Config.FLAG]
  · simp [Config.C_SET, Config.FLAG]
  · rw [if_neg (Ne.symm ha)]
  · rw [if_neg (Ne.symm (wf_cI_ne_flag h seq)), if_neg (Ne.symm (wf_cI_ne_flag h (!seq))), if_neg (Ne.symm hd)]
  · rw [if_neg (Ne.symm hd)]

/-- The flag is never a reject control octet. -/
theorem wf_rejects_flag (h : p.wf) (phase : Phase) (seq : Bool) : rejects p phase seq Config.FLAG = false := by
  have hr := wf_controlCode_ne_flag h (wf_rejCode_mem seq)
  cases phase <;> simp [rejects, Ne.symm hr]

/-- An acceptable header is a pair of 30_encoding.md R92. -/
theorem accept_pair {phase : Phase} {seq : Bool} {c : Octet} {kd : FrameKind × Bool}
    (h : accept p phase seq c = some kd) : (expA p phase, c) ∈ p.pairs := by
  cases phase <;> simp only [accept] at h
  · cases h
  · split at h
    · subst c; simp [expA, Params.pairs]
    · cases h
  · split at h
    · subst c; simp [expA, Params.pairs]
    · cases h
  · split at h
    · subst c; cases seq <;> simp [expA, Params.pairs, Params.ackCode, Params.cRR]
    · cases h
  · split at h
    · subst c; cases seq <;> simp [expA, Params.pairs, Params.cI]
    · split at h
      · subst c; cases seq <;> simp [expA, Params.pairs, Params.cI]
      · split at h
        · subst c; simp [expA, Params.pairs]
        · cases h
  · split at h
    · subst c; simp [expA, Params.pairs]
    · cases h

/-- No acceptable header has the flag for its checksum. -/
theorem wf_accept_checksum (h : p.wf) {phase : Phase} {seq : Bool} {c : Octet} {kd : FrameKind × Bool}
    (ha : accept p phase seq c = some kd) : expA p phase ^^^ c ≠ Config.FLAG :=
  wf_pair_ne_flag h (accept_pair ha)

/-- Information kind is accepted in `AwaitData` only (43_arq_controller.md R201). -/
theorem accept_info_phase {phase : Phase} {seq : Bool} {c : Octet} {d : Bool}
    (h : accept p phase seq c = some (.info, d)) : phase = .awaitData := by
  cases phase <;> simp only [accept] at h <;> first | rfl | (split at h <;> cases h) | cases h

theorem rejects_phase {phase : Phase} {seq : Bool} {c : Octet} (h : rejects p phase seq c = true) :
    phase = .awaitAck := by
  cases phase <;> first | rfl | cases h

end Sys2Proof.Machine
end

