-- ==== Sys2Proof/Laws/Receiver.lean ====
section
/-! SUPPORT. The laws of the receiver: the cells of the accumulator, what a step does in each state, what every
step keeps, and the walks over a header and over a data region (41_ctrl_receiver.md, 42_data_receiver.md). -/

namespace Sys2Proof.Machine

/-! ## Cells -/

theorem take_storeCell (cells : Octets) (n : Nat) (v : Octet) :
    (storeCell cells n v).take (n + 1) = cells.take n ++ [v] := by
  rw [storeCell, List.take_append]
  by_cases h : n ≤ cells.length
  · simp [List.length_take, Nat.min_eq_left h, List.take_of_length_le (Nat.le_trans (List.length_take_le ..) (Nat.le_succ n))]
  · have hl : cells.length ≤ n := by omega
    have hd : cells.drop (n + 1) = [] := List.drop_of_length_le (by omega)
    rw [hd, List.take_of_length_le hl, List.take_of_length_le (by omega : cells.length ≤ n + 1),
      List.take_of_length_le (by simp; omega)]

theorem storeCell_length {cells : Octets} {n : Nat} (h : n ≤ cells.length) (v : Octet) :
    (storeCell cells n v).length = max cells.length (n + 1) := by
  simp [storeCell, List.length_take, Nat.min_eq_left h]; omega

theorem drop_storeCell {cells : Octets} {n : Nat} (h : n ≤ cells.length) (v : Octet) (k : Nat) :
    (storeCell cells n v).drop (n + 1 + k) = cells.drop (n + 1 + k) := by
  rw [storeCell, List.drop_append, List.length_take, Nat.min_eq_left h, List.drop_of_length_le (by simp; omega)]
  have e : n + 1 + k - n = k + 1 := by omega
  rw [e, List.drop_succ_cons, List.drop_drop]
  simp

theorem take_succ_getD (cells : Octets) {n : Nat} (h : n < cells.length) :
    cells.take (n + 1) = cells.take n ++ [cells.getD n 0] := by
  rw [List.take_add_one, List.getD_eq_getElem?_getD, List.getElem?_eq_getElem h]; rfl

/-! ## The step, state by state -/

section
variable {p : Params} {phase : Phase} {seq : Bool} {b : Octet} {r : Receiver}

theorem rxStep_idle (h : r.state = .idle) : rxStep p phase seq b r = rxIdle b r := by simp [rxStep, h]
theorem rxStep_flag (h : r.state = .flag) : rxStep p phase seq b r = rxFlag p phase b r := by simp [rxStep, h]
theorem rxStep_addr (h : r.state = .addr) : rxStep p phase seq b r = rxAddr p phase seq b r := by simp [rxStep, h]
theorem rxStep_ctrl (h : r.state = .ctrl) : rxStep p phase seq b r = rxCtrl b r := by simp [rxStep, h]
theorem rxStep_bcc1 (h : r.state = .bcc1) : rxStep p phase seq b r = rxBcc1 b r := by simp [rxStep, h]
theorem rxStep_payload (h : r.state = .payload) : rxStep p phase seq b r = rxPayload p b r := by simp [rxStep, h]
theorem rxStep_done (h : r.state = .done) : rxStep p phase seq b r = rxIdle b r := by simp [rxStep, h]

/-- The states that look for a frame's opening flag or header. -/
abbrev Receiver.hunting (r : Receiver) : Prop := r.state ≠ .bcc1 ∧ r.state ≠ .payload ∧ r.state ≠ .done

/-- An outcome that leaves the wait going (43_arq_controller.md R202). -/
abbrev RxOutcome.quiet (o : RxOutcome) : Prop := o = .needMore ∨ o = .resync

/-- A flag opens a frame in every hunting state (41_ctrl_receiver.md R160, R161). -/
theorem rxStep_openingFlag (hwf : p.wf) (hl : Latched p phase seq r) (hh : r.hunting) :
    ∃ o, RxOutcome.quiet o ∧ rxStep p phase seq Config.FLAG r = (o, { r with state := .flag }) := by
  cases hs : r.state with
  | idle => exact ⟨_, .inl rfl, by simp [rxStep, hs, rxIdle]⟩
  | flag =>
    refine ⟨_, .inl rfl, ?_⟩
    simp only [rxStep, hs, rxFlag, if_neg (Ne.symm (wf_expA_ne_flag hwf phase)), if_true]
    rw [← hs]
  | addr =>
    exact ⟨_, .inr rfl, by
      simp [rxStep, hs, rxAddr, wf_accept_flag hwf, wf_rejects_flag hwf]⟩
  | ctrl =>
    refine ⟨_, .inr rfl, ?_⟩
    have ha := hl.address (by simp [hs])
    have hc := hl.control (by simp [hs])
    have hx := wf_accept_checksum hwf hc
    simp [rxStep, hs, rxCtrl, ha, Ne.symm hx]
  | bcc1 => exact absurd hs hh.1
  | payload => exact absurd hs hh.2.1
  | done => exact absurd hs hh.2.2

theorem rxStep_address (h : r.state = .flag) :
    rxStep p phase seq (expA p phase) r = (.needMore, { r with a := expA p phase, state := .addr }) := by
  simp [rxStep_flag h, rxFlag]

theorem rxStep_control (h : r.state = .addr) {k : FrameKind} {d : Bool} (ha : accept p phase seq b = some (k, d)) :
    rxStep p phase seq b r = (.needMore, { r with c := b, kind := k, dup := d, state := .ctrl }) := by
  simp [rxStep_addr h, rxAddr, ha]

theorem rxStep_checksum_ctrl (h : r.state = .ctrl) (hk : r.kind = .ctrl) :
    rxStep p phase seq (r.a ^^^ r.c) r = (.needMore, { r with state := .bcc1 }) := by
  simp [rxStep_ctrl h, rxCtrl, hk]

theorem rxStep_checksum_info (h : r.state = .ctrl) (hk : r.kind = .info) :
    rxStep p phase seq (r.a ^^^ r.c) r = (.needMore, { r with len := 0, escPend := false, state := .payload }) := by
  simp [rxStep_ctrl h, rxCtrl, hk]

/-! ## What every step keeps -/

/-- The receiver's part of the invariant. -/
structure RxInv (p : Params) (phase : Phase) (seq : Bool) (r : Receiver) : Prop where
  cells : r.acc.length ≤ p.accCap
  lenCells : r.len ≤ r.acc.length
  escape : r.escPend = true → r.state = .payload
  lenState : 0 < r.len → r.state = .payload
  notDone : r.state ≠ .done
  latched : Latched p phase seq r

/-- A receiver whose state is one of the header states keeps nothing but its latches. -/
theorem latched_of_early (h : r.state = .idle ∨ r.state = .flag ∨ r.state = .done) : Latched p phase seq r := by
  constructor <;> (rcases h with h | h | h <;> simp [h])

theorem RxInv.of_search {r' : Receiver} (hi : RxInv p phase seq r) (hst : r'.state = .idle ∨ r'.state = .flag)
    (hacc : r'.acc = r.acc) (hlen : r'.len = 0) (hesc : r'.escPend = false) : RxInv p phase seq r' where
  cells := by rw [hacc]; exact hi.cells
  lenCells := by omega
  escape := by simp [hesc]
  lenState := by omega
  notDone := by rcases hst with h | h <;> simp [h]
  latched := latched_of_early (hst.imp_right .inl)

/-- The receiver just initialised (10_state.md R48). -/
theorem RxInv.init (h : r.acc.length ≤ p.accCap) : RxInv p phase seq r.init where
  cells := h
  lenCells := Nat.zero_le _
  escape := by simp [Receiver.init]
  lenState := by simp [Receiver.init]
  notDone := by simp [Receiver.init]
  latched := latched_of_early (.inl rfl)

theorem RxInv.len_zero (hi : RxInv p phase seq r) (h : r.state ≠ .payload) : r.len = 0 := by
  by_contra hne
  exact h (hi.lenState (by omega))

theorem RxInv.esc_false (hi : RxInv p phase seq r) (h : r.state ≠ .payload) : r.escPend = false := by
  cases he : r.escPend with
  | false => rfl
  | true => exact absurd (hi.escape he) h

/-- `Append` keeps the cells, whichever branch it takes. -/
theorem rxAppend_keeps (hi : RxInv p phase seq r) (hs : r.state = .payload) (v : Octet) {o : RxOutcome}
    {r' : Receiver} (h : rxAppend p v { r with escPend := false } = (o, r')) :
    o.quiet ∧ RxInv p phase seq r' := by
  simp only [rxAppend] at h
  split at h
  · cases h
    exact ⟨.inr rfl, hi.of_search (.inl rfl) rfl rfl rfl⟩
  · rename_i hne
    cases h
    have hlc := hi.lenCells
    have hcl := hi.cells
    refine ⟨.inl rfl, ?_, ?_, ?_, ?_, ?_, ?_⟩
    · simp only [storeCell_length hlc]; omega
    · simp only [storeCell_length hlc]; omega
    · simp
    · simp [hs]
    · simp [hs]
    · have hl := hi.latched
      exact ⟨hl.address, hl.control, hl.kindBcc1, hl.kindPayload⟩

/-- What a receiver step does to the receiver's invariant: a quiet outcome keeps it, and a terminal one (after
which the controller initialises the receiver) keeps the cells. -/
theorem rxStep_keeps (hi : RxInv p phase seq r) {o : RxOutcome} {r' : Receiver}
    (h : rxStep p phase seq b r = (o, r')) :
    r'.acc.length ≤ p.accCap ∧ (o.quiet → RxInv p phase seq r') := by
  have search : ∀ {st : RxState}, (st = .idle ∨ st = .flag) → r.state ≠ .payload →
      RxInv p phase seq { r with state := st } :=
    fun hst hn => hi.of_search hst rfl (hi.len_zero hn) (hi.esc_false hn)
  have hl := hi.latched
  cases hs : r.state with
  | idle =>
    simp only [rxStep, hs, rxIdle] at h
    split at h <;> cases h
    · exact ⟨hi.cells, fun _ => search (.inr rfl) (by simp [hs])⟩
    · exact ⟨hi.cells, fun _ => hi⟩
  | flag =>
    simp only [rxStep, hs, rxFlag] at h
    have hn : r.state ≠ .payload := by simp [hs]
    split at h
    · rename_i hb
      cases h
      refine ⟨hi.cells, fun _ => ⟨hi.cells, hi.lenCells, ?_, ?_, by simp, ?_⟩⟩
      · simp [hi.esc_false hn]
      · simp [hi.len_zero hn]
      · exact ⟨fun _ => hb, by simp, by simp, by simp⟩
    · split at h <;> cases h
      · exact ⟨hi.cells, fun _ => hi⟩
      · exact ⟨hi.cells, fun _ => search (.inl rfl) hn⟩
  | addr =>
    simp only [rxStep, hs, rxAddr] at h
    have hn : r.state ≠ .payload := by simp [hs]
    split at h
    · rename_i k d hb
      cases h
      refine ⟨hi.cells, fun _ => ⟨hi.cells, hi.lenCells, ?_, ?_, by simp, ?_⟩⟩
      · simp [hi.esc_false hn]
      · simp [hi.len_zero hn]
      · exact ⟨fun _ => hl.address (by simp [hs]), fun _ => hb, by simp, by simp⟩
    · split at h
      · cases h; exact ⟨hi.cells, fun hq => by rcases hq with hq | hq <;> cases hq⟩
      · split at h <;> cases h
        · exact ⟨hi.cells, fun _ => search (.inr rfl) hn⟩
        · exact ⟨hi.cells, fun _ => search (.inl rfl) hn⟩
  | ctrl =>
    simp only [rxStep, hs, rxCtrl] at h
    have hn : r.state ≠ .payload := by simp [hs]
    split at h
    · split at h
      · rename_i hk
        cases h
        refine ⟨hi.cells, fun _ => ⟨hi.cells, Nat.zero_le _, by simp, by simp, by simp, ?_⟩⟩
        exact ⟨fun _ => hl.address (by simp [hs]), fun _ => hl.control (by simp [hs]), by simp, fun _ => hk⟩
      · rename_i hk
        cases h
        refine ⟨hi.cells, fun _ => ⟨hi.cells, hi.lenCells, ?_, ?_, by simp, ?_⟩⟩
        · simp [hi.esc_false hn]
        · simp [hi.len_zero hn]
        · exact ⟨fun _ => hl.address (by simp [hs]), fun _ => hl.control (by simp [hs]), fun _ => hk, by simp⟩
    · split at h <;> cases h
      · exact ⟨hi.cells, fun _ => search (.inr rfl) hn⟩
      · exact ⟨hi.cells, fun _ => search (.inl rfl) hn⟩
  | bcc1 =>
    simp only [rxStep, hs, rxBcc1] at h
    split at h <;> cases h
    · exact ⟨hi.cells, fun hq => by rcases hq with hq | hq <;> cases hq⟩
    · exact ⟨hi.cells, fun _ => search (.inl rfl) (by simp [hs])⟩
  | payload =>
    rw [rxStep_payload hs] at h
    simp only [rxPayload] at h
    split at h
    · obtain ⟨-, hk⟩ := rxAppend_keeps hi hs _ h
      exact ⟨hk.cells, fun _ => hk⟩
    · rename_i hesc
      have hesc' : r.escPend = false := by simpa using hesc
      split at h
      · cases h
        refine ⟨hi.cells, fun _ => ⟨hi.cells, hi.lenCells, by simp [hs], by simp [hs], by simp [hs], ?_⟩⟩
        exact ⟨hl.address, hl.control, hl.kindBcc1, hl.kindPayload⟩
      · split at h
        · split at h
          · rename_i hz
            cases h
            exact ⟨hi.cells, fun _ => hi.of_search (.inr rfl) rfl hz hesc'⟩
          · have hq : o = .bcc2Mismatch ∨ o = .duplicate ∨ o = .dataAccepted := by
              simp only [rxClose] at h
              split at h
              · cases h; simp
              · split at h <;> cases h <;> simp
            have hacc : r'.acc = r.acc := by
              simp only [rxClose] at h
              split at h
              · cases h; rfl
              · split at h <;> cases h <;> rfl
            refine ⟨by rw [hacc]; exact hi.cells, fun hq' => ?_⟩
            rcases hq with rfl | rfl | rfl <;> rcases hq' with hq' | hq' <;> cases hq'
        · have e : r = { r with escPend := false } := by rw [← hesc']
          rw [e] at h
          obtain ⟨-, hk⟩ := rxAppend_keeps hi hs _ h
          exact ⟨hk.cells, fun _ => hk⟩
  | done => exact absurd hs hi.notDone

/-- Which outcomes a wait can see (43_arq_controller.md R202: "No other pair can occur"). -/
theorem rxStep_outcome_phase {r' : Receiver} {o : RxOutcome} (hl : Latched p phase seq r) (h : rxStep p phase seq b r = (o, r')) :
    o.quiet ∨ (o = .accepted ∧ phase ≠ .none) ∨ (o = .rejected ∧ phase = .awaitAck) ∨
      ((o = .dataAccepted ∨ o = .duplicate ∨ o = .bcc2Mismatch) ∧ phase = .awaitData) := by
  cases hs : r.state with
  | idle => simp only [rxStep, hs, rxIdle] at h; split at h <;> cases h <;> simp [RxOutcome.quiet]
  | done => simp only [rxStep, hs, rxIdle] at h; split at h <;> cases h <;> simp [RxOutcome.quiet]
  | flag =>
    simp only [rxStep, hs, rxFlag] at h
    split at h
    · cases h; simp [RxOutcome.quiet]
    · split at h <;> cases h <;> simp [RxOutcome.quiet]
  | addr =>
    simp only [rxStep, hs, rxAddr] at h
    split at h
    · cases h; simp [RxOutcome.quiet]
    · split at h
      · rename_i hr
        cases h; simp [rejects_phase hr]
      · split at h <;> cases h <;> simp [RxOutcome.quiet]
  | ctrl =>
    simp only [rxStep, hs, rxCtrl] at h
    split at h
    · split at h <;> cases h <;> simp [RxOutcome.quiet]
    · split at h <;> cases h <;> simp [RxOutcome.quiet]
  | bcc1 =>
    simp only [rxStep, hs, rxBcc1] at h
    split at h <;> cases h
    · have hc := hl.control (by simp [hs])
      refine .inr (.inl ⟨rfl, ?_⟩)
      rintro rfl
      cases hc
    · simp [RxOutcome.quiet]
  | payload =>
    have hp : phase = .awaitData := by
      have hc := hl.control (by simp [hs])
      rw [hl.kindPayload hs] at hc
      exact accept_info_phase hc
    subst hp
    have happ : ∀ v q, rxAppend p v q = (o, r') → o.quiet := by
      intro v q h
      simp only [rxAppend] at h
      split at h <;> cases h <;> simp [RxOutcome.quiet]
    rw [rxStep_payload hs] at h
    simp only [rxPayload] at h
    split at h
    · exact .inl (happ _ _ h)
    · split at h
      · cases h; simp [RxOutcome.quiet]
      · split at h
        · split at h
          · cases h; simp [RxOutcome.quiet]
          · simp only [rxClose] at h
            split at h
            · cases h; simp
            · split at h <;> cases h <;> simp
        · exact .inl (happ _ _ h)

/-! ## Runs of octets -/

theorem rxRun_append (xs ys : Octets) (r : Receiver) :
    rxRun p phase seq (xs ++ ys) r =
      ((rxRun p phase seq xs r).1 ++ (rxRun p phase seq ys (rxRun p phase seq xs r).2).1,
       (rxRun p phase seq ys (rxRun p phase seq xs r).2).2) := by
  induction xs generalizing r with
  | nil => rfl
  | cons x xs ih => simp [rxRun, ih]

theorem rxRun_length (xs : Octets) (r : Receiver) : (rxRun p phase seq xs r).1.length = xs.length := by
  induction xs generalizing r with
  | nil => rfl
  | cons x xs ih => simp [rxRun, ih]

/-- The header of an acceptable frame, from any hunting state: four quiet outcomes, and the receiver waits for the
closing flag or the data region (41_ctrl_receiver.md R160). -/
theorem rxRun_header (hwf : p.wf) (hl : Latched p phase seq r) (hh : r.hunting) {c : Octet} {k : FrameKind}
    {d : Bool} (ha : accept p phase seq c = some (k, d)) (hlen : r.len = 0) (hesc : r.escPend = false) :
    ∃ o, RxOutcome.quiet o ∧
      rxRun p phase seq [Config.FLAG, expA p phase, c, expA p phase ^^^ c] r =
        ([o, .needMore, .needMore, .needMore],
         { r with state := if k = .info then .payload else .bcc1, a := expA p phase, c := c, kind := k, dup := d }) := by
  obtain ⟨o, hq, ho⟩ := rxStep_openingFlag hwf hl hh
  refine ⟨o, hq, ?_⟩
  simp only [rxRun, ho]
  rw [rxStep_address rfl]
  simp only
  rw [rxStep_control rfl ha]
  simp only
  cases k with
  | ctrl => simp [rxStep, rxCtrl]
  | info =>
    simp only [rxStep, rxCtrl]
    cases r; simp_all

/-- The accumulator after the octets `s` are stored from index `RX_LEN` on. -/
def storeAll (r : Receiver) (s : Octets) : Receiver :=
  { r with acc := r.acc.take r.len ++ s ++ r.acc.drop (r.len + s.length), len := r.len + s.length }

theorem storeAll_value (r : Receiver) (s : Octets) (h : r.len ≤ r.acc.length) :
    (storeAll r s).value = r.value ++ s := by
  simp only [storeAll, Receiver.value]
  rw [List.take_append_of_le_length (by simp; omega), List.take_of_length_le (by simp)]

theorem storeAll_cons (r : Receiver) (b : Octet) (s : Octets) (h : r.len ≤ r.acc.length) :
    storeAll { r with acc := storeCell r.acc r.len b, len := r.len + 1 } s = storeAll r (b :: s) := by
  have hd : ∀ k, (storeCell r.acc r.len b).drop (r.len + 1 + k) = r.acc.drop (r.len + 1 + k) :=
    fun k => drop_storeCell h b k
  have e : r.len + (s.length + 1) = r.len + 1 + s.length := by omega
  simp only [storeAll, take_storeCell, hd, List.length_cons, e, List.append_assoc, List.singleton_append]

/-- One stuffed octet in the data region stores that octet (42_data_receiver.md R175, R176, R179). -/
theorem rxRun_stuffOctet (hs : r.state = .payload) (hesc : r.escPend = false) (hcap : r.len < p.accCap) (b : Octet) :
    rxRun p phase seq (stuffOctet b) r =
      (List.replicate (stuffOctet b).length .needMore,
       { r with acc := storeCell r.acc r.len b, len := r.len + 1 }) := by
  have hne : r.len ≠ p.accCap := by omega
  rcases stuffOctet_cases b with ⟨-, h⟩ | ⟨hf, he, h⟩
  · rw [h]
    cases r; simp_all [rxRun, rxStep, rxPayload, rxAppend]
  · rw [h]
    simp [rxRun, rxStep, rxPayload, hs, hesc, he, hf, rxAppend, hne]

/-- A stuffed data region stores the region (42_data_receiver.md R184). -/
theorem rxRun_stuff (s : Octets) (hs : r.state = .payload) (hesc : r.escPend = false)
    (hlen : r.len ≤ r.acc.length) (hcap : r.len + s.length ≤ p.accCap) :
    rxRun p phase seq (stuff s) r = (List.replicate (stuff s).length .needMore, storeAll r s) := by
  induction s generalizing r with
  | nil => cases r; simp [rxRun, storeAll]
  | cons b s ih =>
    rw [stuff_cons, rxRun_append, rxRun_stuffOctet hs hesc (by simp at hcap; omega)]
    simp only
    rw [ih (r := { r with acc := storeCell r.acc r.len b, len := r.len + 1 }) hs hesc
      (by simp only [storeCell_length hlen]; omega) (by simp only [List.length_cons] at hcap; simp only; omega),
      storeAll_cons r b s hlen]
    simp [List.replicate_append_replicate]

/-- The closing flag of a data region (42_data_receiver.md R180), with the region's octets known. -/
theorem rxStep_closingFlag (hs : r.state = .payload) (hesc : r.escPend = false) {n : Nat} (hn : r.len = n + 1)
    (hlen : r.len ≤ r.acc.length) {payload : Octets} {chk : Octet} (hv : r.value = payload ++ [chk]) :
    rxStep p phase seq Config.FLAG r =
      (if bcc payload ≠ chk then .bcc2Mismatch else if r.dup then .duplicate else .dataAccepted,
        { r with len := n, state := .done }) ∧
    r.acc.take n = payload := by
  have h1 : r.acc.take (n + 1) = r.acc.take n ++ [r.acc.getD n 0] := take_succ_getD _ (by omega)
  rw [Receiver.value, hn, h1] at hv
  obtain ⟨hp, hc⟩ := List.append_inj' hv rfl
  have hc' : r.acc.getD n 0 = chk := by simpa using hc
  refine ⟨?_, hp⟩
  have he : ¬(Config.FLAG = Config.ESC) := by decide
  simp only [rxStep, hs, rxPayload, hesc, Bool.false_eq_true, if_false, if_neg he, if_true, hn, rxClose,
    Receiver.value, hp, hc']
  split
  · rfl
  · split <;> rfl

end

end Sys2Proof.Machine
end

