-- ==== Sys2Proof/Laws/State.lean ====
section
/-! SUPPORT. One lemma per field per update of State (and of Receiver and Env), each true by definition, so that no
proof unfolds a record update. -/

namespace Sys2Proof.Machine

variable (s : State)

/-! ### State.emit -/

@[simp] theorem State.emit_params (act : Action) : (s.emit act).params = s.params := rfl
@[simp] theorem State.emit_role (act : Action) : (s.emit act).role = s.role := rfl
@[simp] theorem State.emit_maxRetx (act : Action) : (s.emit act).maxRetx = s.maxRetx := rfl
@[simp] theorem State.emit_timeoutS (act : Action) : (s.emit act).timeoutS = s.timeoutS := rfl
@[simp] theorem State.emit_session (act : Action) : (s.emit act).session = s.session := rfl
@[simp] theorem State.emit_failed (act : Action) : (s.emit act).failed = s.failed := rfl
@[simp] theorem State.emit_phase (act : Action) : (s.emit act).phase = s.phase := rfl
@[simp] theorem State.emit_seq (act : Action) : (s.emit act).seq = s.seq := rfl
@[simp] theorem State.emit_txbuf (act : Action) : (s.emit act).txbuf = s.txbuf := rfl
@[simp] theorem State.emit_txlen (act : Action) : (s.emit act).txlen = s.txlen := rfl
@[simp] theorem State.emit_txPlen (act : Action) : (s.emit act).txPlen = s.txPlen := rfl
@[simp] theorem State.emit_retry (act : Action) : (s.emit act).retry = s.retry := rfl
@[simp] theorem State.emit_timerArmed (act : Action) : (s.emit act).timerArmed = s.timerArmed := rfl
@[simp] theorem State.emit_report (act : Action) : (s.emit act).report = s.report := rfl
@[simp] theorem State.emit_rx (act : Action) : (s.emit act).rx = s.rx := rfl
@[simp] theorem State.emit_stats (act : Action) : (s.emit act).stats = s.stats := rfl
@[simp] theorem State.emit_env_inputs (act : Action) : (s.emit act).env.inputs = s.env.inputs := rfl
@[simp] theorem State.emit_env_held (act : Action) : (s.emit act).env.held = s.env.held := rfl
@[simp] theorem State.emit_env_answers (act : Action) : (s.emit act).env.answers = s.env.answers := rfl
@[simp] theorem State.emit_env_asks (act : Action) : (s.emit act).env.asks = s.env.asks := rfl
@[simp] theorem State.emit_env_actions (act : Action) : (s.emit act).env.actions = s.env.actions ++ [act] := rfl

/-! ### State.chanAsk -/

@[simp] theorem State.chanAsk_params (act : Action) : (s.chanAsk act).params = s.params := rfl
@[simp] theorem State.chanAsk_role (act : Action) : (s.chanAsk act).role = s.role := rfl
@[simp] theorem State.chanAsk_maxRetx (act : Action) : (s.chanAsk act).maxRetx = s.maxRetx := rfl
@[simp] theorem State.chanAsk_timeoutS (act : Action) : (s.chanAsk act).timeoutS = s.timeoutS := rfl
@[simp] theorem State.chanAsk_session (act : Action) : (s.chanAsk act).session = s.session := rfl
@[simp] theorem State.chanAsk_failed (act : Action) : (s.chanAsk act).failed = s.failed := rfl
@[simp] theorem State.chanAsk_phase (act : Action) : (s.chanAsk act).phase = s.phase := rfl
@[simp] theorem State.chanAsk_seq (act : Action) : (s.chanAsk act).seq = s.seq := rfl
@[simp] theorem State.chanAsk_txbuf (act : Action) : (s.chanAsk act).txbuf = s.txbuf := rfl
@[simp] theorem State.chanAsk_txlen (act : Action) : (s.chanAsk act).txlen = s.txlen := rfl
@[simp] theorem State.chanAsk_txPlen (act : Action) : (s.chanAsk act).txPlen = s.txPlen := rfl
@[simp] theorem State.chanAsk_retry (act : Action) : (s.chanAsk act).retry = s.retry := rfl
@[simp] theorem State.chanAsk_timerArmed (act : Action) : (s.chanAsk act).timerArmed = s.timerArmed := rfl
@[simp] theorem State.chanAsk_report (act : Action) : (s.chanAsk act).report = s.report := rfl
@[simp] theorem State.chanAsk_rx (act : Action) : (s.chanAsk act).rx = s.rx := rfl
@[simp] theorem State.chanAsk_stats (act : Action) : (s.chanAsk act).stats = s.stats := rfl
@[simp] theorem State.chanAsk_env_inputs (act : Action) : (s.chanAsk act).env.inputs = s.env.inputs := rfl
@[simp] theorem State.chanAsk_env_held (act : Action) : (s.chanAsk act).env.held = s.env.held := rfl
@[simp] theorem State.chanAsk_env_answers (act : Action) : (s.chanAsk act).env.answers = s.env.answers.drop 1 := rfl
@[simp] theorem State.chanAsk_env_asks (act : Action) : (s.chanAsk act).env.asks = s.env.asks + 1 := rfl
@[simp] theorem State.chanAsk_env_actions (act : Action) : (s.chanAsk act).env.actions = s.env.actions ++ [act] := rfl

/-! ### State.chanClose -/

@[simp] theorem State.chanClose_params : s.chanClose.params = s.params := rfl
@[simp] theorem State.chanClose_role : s.chanClose.role = s.role := rfl
@[simp] theorem State.chanClose_maxRetx : s.chanClose.maxRetx = s.maxRetx := rfl
@[simp] theorem State.chanClose_timeoutS : s.chanClose.timeoutS = s.timeoutS := rfl
@[simp] theorem State.chanClose_session : s.chanClose.session = s.session := rfl
@[simp] theorem State.chanClose_failed : s.chanClose.failed = s.failed := rfl
@[simp] theorem State.chanClose_phase : s.chanClose.phase = s.phase := rfl
@[simp] theorem State.chanClose_seq : s.chanClose.seq = s.seq := rfl
@[simp] theorem State.chanClose_txbuf : s.chanClose.txbuf = s.txbuf := rfl
@[simp] theorem State.chanClose_txlen : s.chanClose.txlen = s.txlen := rfl
@[simp] theorem State.chanClose_txPlen : s.chanClose.txPlen = s.txPlen := rfl
@[simp] theorem State.chanClose_retry : s.chanClose.retry = s.retry := rfl
@[simp] theorem State.chanClose_timerArmed : s.chanClose.timerArmed = s.timerArmed := rfl
@[simp] theorem State.chanClose_report : s.chanClose.report = s.report := rfl
@[simp] theorem State.chanClose_rx : s.chanClose.rx = s.rx := rfl
@[simp] theorem State.chanClose_stats : s.chanClose.stats = s.stats := rfl
@[simp] theorem State.chanClose_env_inputs : s.chanClose.env.inputs = s.env.inputs := rfl
@[simp] theorem State.chanClose_env_held : s.chanClose.env.held = s.env.held := rfl
@[simp] theorem State.chanClose_env_answers : s.chanClose.env.answers = s.env.answers.drop 1 := rfl
@[simp] theorem State.chanClose_env_asks : s.chanClose.env.asks = s.env.asks + 1 := rfl
@[simp] theorem State.chanClose_env_actions : s.chanClose.env.actions = s.env.actions ++ [.chanClose s.answer] := rfl

/-! ### State.timerArm -/

@[simp] theorem State.timerArm_params : s.timerArm.params = s.params := rfl
@[simp] theorem State.timerArm_role : s.timerArm.role = s.role := rfl
@[simp] theorem State.timerArm_maxRetx : s.timerArm.maxRetx = s.maxRetx := rfl
@[simp] theorem State.timerArm_timeoutS : s.timerArm.timeoutS = s.timeoutS := rfl
@[simp] theorem State.timerArm_session : s.timerArm.session = s.session := rfl
@[simp] theorem State.timerArm_failed : s.timerArm.failed = s.failed := rfl
@[simp] theorem State.timerArm_phase : s.timerArm.phase = s.phase := rfl
@[simp] theorem State.timerArm_seq : s.timerArm.seq = s.seq := rfl
@[simp] theorem State.timerArm_txbuf : s.timerArm.txbuf = s.txbuf := rfl
@[simp] theorem State.timerArm_txlen : s.timerArm.txlen = s.txlen := rfl
@[simp] theorem State.timerArm_txPlen : s.timerArm.txPlen = s.txPlen := rfl
@[simp] theorem State.timerArm_retry : s.timerArm.retry = s.retry := rfl
@[simp] theorem State.timerArm_timerArmed : s.timerArm.timerArmed = true := rfl
@[simp] theorem State.timerArm_report : s.timerArm.report = s.report := rfl
@[simp] theorem State.timerArm_rx : s.timerArm.rx = s.rx := rfl
@[simp] theorem State.timerArm_stats : s.timerArm.stats = s.stats := rfl
@[simp] theorem State.timerArm_env_inputs : s.timerArm.env.inputs = s.env.inputs := rfl
@[simp] theorem State.timerArm_env_held : s.timerArm.env.held = s.env.held := rfl
@[simp] theorem State.timerArm_env_answers : s.timerArm.env.answers = s.env.answers := rfl
@[simp] theorem State.timerArm_env_asks : s.timerArm.env.asks = s.env.asks := rfl
@[simp] theorem State.timerArm_env_actions : s.timerArm.env.actions = s.env.actions ++ [.timerArm s.timeoutS] := rfl

/-! ### State.timerCancel -/

@[simp] theorem State.timerCancel_params : s.timerCancel.params = s.params := rfl
@[simp] theorem State.timerCancel_role : s.timerCancel.role = s.role := rfl
@[simp] theorem State.timerCancel_maxRetx : s.timerCancel.maxRetx = s.maxRetx := rfl
@[simp] theorem State.timerCancel_timeoutS : s.timerCancel.timeoutS = s.timeoutS := rfl
@[simp] theorem State.timerCancel_session : s.timerCancel.session = s.session := rfl
@[simp] theorem State.timerCancel_failed : s.timerCancel.failed = s.failed := rfl
@[simp] theorem State.timerCancel_phase : s.timerCancel.phase = s.phase := rfl
@[simp] theorem State.timerCancel_seq : s.timerCancel.seq = s.seq := rfl
@[simp] theorem State.timerCancel_txbuf : s.timerCancel.txbuf = s.txbuf := rfl
@[simp] theorem State.timerCancel_txlen : s.timerCancel.txlen = s.txlen := rfl
@[simp] theorem State.timerCancel_txPlen : s.timerCancel.txPlen = s.txPlen := rfl
@[simp] theorem State.timerCancel_retry : s.timerCancel.retry = s.retry := rfl
@[simp] theorem State.timerCancel_timerArmed : s.timerCancel.timerArmed = false := rfl
@[simp] theorem State.timerCancel_report : s.timerCancel.report = s.report := rfl
@[simp] theorem State.timerCancel_rx : s.timerCancel.rx = s.rx := rfl
@[simp] theorem State.timerCancel_stats : s.timerCancel.stats = s.stats := rfl
@[simp] theorem State.timerCancel_env_inputs : s.timerCancel.env.inputs = s.env.inputs := rfl
@[simp] theorem State.timerCancel_env_held : s.timerCancel.env.held = s.env.held := rfl
@[simp] theorem State.timerCancel_env_answers : s.timerCancel.env.answers = s.env.answers := rfl
@[simp] theorem State.timerCancel_env_asks : s.timerCancel.env.asks = s.env.asks := rfl
@[simp] theorem State.timerCancel_env_actions : s.timerCancel.env.actions = s.env.actions ++ [.timerCancel] := rfl

/-! ### State.result -/

@[simp] theorem State.result_params (r : Result) : (s.result r).params = s.params := rfl
@[simp] theorem State.result_role (r : Result) : (s.result r).role = s.role := rfl
@[simp] theorem State.result_maxRetx (r : Result) : (s.result r).maxRetx = s.maxRetx := rfl
@[simp] theorem State.result_timeoutS (r : Result) : (s.result r).timeoutS = s.timeoutS := rfl
@[simp] theorem State.result_session (r : Result) : (s.result r).session = s.session := rfl
@[simp] theorem State.result_failed (r : Result) : (s.result r).failed = s.failed := rfl
@[simp] theorem State.result_phase (r : Result) : (s.result r).phase = .none := rfl
@[simp] theorem State.result_seq (r : Result) : (s.result r).seq = s.seq := rfl
@[simp] theorem State.result_txbuf (r : Result) : (s.result r).txbuf = s.txbuf := rfl
@[simp] theorem State.result_txlen (r : Result) : (s.result r).txlen = s.txlen := rfl
@[simp] theorem State.result_txPlen (r : Result) : (s.result r).txPlen = s.txPlen := rfl
@[simp] theorem State.result_retry (r : Result) : (s.result r).retry = s.retry := rfl
@[simp] theorem State.result_timerArmed (r : Result) : (s.result r).timerArmed = s.timerArmed := rfl
@[simp] theorem State.result_report (r : Result) : (s.result r).report = s.report := rfl
@[simp] theorem State.result_rx (r : Result) : (s.result r).rx = s.rx := rfl
@[simp] theorem State.result_stats (r : Result) : (s.result r).stats = s.stats := rfl
@[simp] theorem State.result_env_inputs (r : Result) : (s.result r).env.inputs = s.env.inputs := rfl
@[simp] theorem State.result_env_held (r : Result) : (s.result r).env.held = s.env.held := rfl
@[simp] theorem State.result_env_answers (r : Result) : (s.result r).env.answers = s.env.answers := rfl
@[simp] theorem State.result_env_asks (r : Result) : (s.result r).env.asks = s.env.asks := rfl
@[simp] theorem State.result_env_actions (r : Result) : (s.result r).env.actions = s.env.actions ++ [.result r] := rfl

/-! ### State.rxInit -/

@[simp] theorem State.rxInit_params : s.rxInit.params = s.params := rfl
@[simp] theorem State.rxInit_role : s.rxInit.role = s.role := rfl
@[simp] theorem State.rxInit_maxRetx : s.rxInit.maxRetx = s.maxRetx := rfl
@[simp] theorem State.rxInit_timeoutS : s.rxInit.timeoutS = s.timeoutS := rfl
@[simp] theorem State.rxInit_session : s.rxInit.session = s.session := rfl
@[simp] theorem State.rxInit_failed : s.rxInit.failed = s.failed := rfl
@[simp] theorem State.rxInit_phase : s.rxInit.phase = s.phase := rfl
@[simp] theorem State.rxInit_seq : s.rxInit.seq = s.seq := rfl
@[simp] theorem State.rxInit_txbuf : s.rxInit.txbuf = s.txbuf := rfl
@[simp] theorem State.rxInit_txlen : s.rxInit.txlen = s.txlen := rfl
@[simp] theorem State.rxInit_txPlen : s.rxInit.txPlen = s.txPlen := rfl
@[simp] theorem State.rxInit_retry : s.rxInit.retry = s.retry := rfl
@[simp] theorem State.rxInit_timerArmed : s.rxInit.timerArmed = s.timerArmed := rfl
@[simp] theorem State.rxInit_report : s.rxInit.report = s.report := rfl
@[simp] theorem State.rxInit_rx : s.rxInit.rx = s.rx.init := rfl
@[simp] theorem State.rxInit_stats : s.rxInit.stats = s.stats := rfl
@[simp] theorem State.rxInit_env : s.rxInit.env = s.env := rfl

/-! ### State.loadTx -/

@[simp] theorem State.loadTx_params (f : Octets) : (s.loadTx f).params = s.params := rfl
@[simp] theorem State.loadTx_role (f : Octets) : (s.loadTx f).role = s.role := rfl
@[simp] theorem State.loadTx_maxRetx (f : Octets) : (s.loadTx f).maxRetx = s.maxRetx := rfl
@[simp] theorem State.loadTx_timeoutS (f : Octets) : (s.loadTx f).timeoutS = s.timeoutS := rfl
@[simp] theorem State.loadTx_session (f : Octets) : (s.loadTx f).session = s.session := rfl
@[simp] theorem State.loadTx_failed (f : Octets) : (s.loadTx f).failed = s.failed := rfl
@[simp] theorem State.loadTx_phase (f : Octets) : (s.loadTx f).phase = s.phase := rfl
@[simp] theorem State.loadTx_seq (f : Octets) : (s.loadTx f).seq = s.seq := rfl
@[simp] theorem State.loadTx_txbuf (f : Octets) : (s.loadTx f).txbuf = loadCells s.txbuf f := rfl
@[simp] theorem State.loadTx_txlen (f : Octets) : (s.loadTx f).txlen = f.length := rfl
@[simp] theorem State.loadTx_txPlen (f : Octets) : (s.loadTx f).txPlen = s.txPlen := rfl
@[simp] theorem State.loadTx_retry (f : Octets) : (s.loadTx f).retry = s.retry := rfl
@[simp] theorem State.loadTx_timerArmed (f : Octets) : (s.loadTx f).timerArmed = s.timerArmed := rfl
@[simp] theorem State.loadTx_report (f : Octets) : (s.loadTx f).report = s.report := rfl
@[simp] theorem State.loadTx_rx (f : Octets) : (s.loadTx f).rx = s.rx := rfl
@[simp] theorem State.loadTx_stats (f : Octets) : (s.loadTx f).stats = s.stats := rfl
@[simp] theorem State.loadTx_env (f : Octets) : (s.loadTx f).env = s.env := rfl

/-! ### State.toggleSeq -/

@[simp] theorem State.toggleSeq_params : s.toggleSeq.params = s.params := rfl
@[simp] theorem State.toggleSeq_role : s.toggleSeq.role = s.role := rfl
@[simp] theorem State.toggleSeq_maxRetx : s.toggleSeq.maxRetx = s.maxRetx := rfl
@[simp] theorem State.toggleSeq_timeoutS : s.toggleSeq.timeoutS = s.timeoutS := rfl
@[simp] theorem State.toggleSeq_session : s.toggleSeq.session = s.session := rfl
@[simp] theorem State.toggleSeq_failed : s.toggleSeq.failed = s.failed := rfl
@[simp] theorem State.toggleSeq_phase : s.toggleSeq.phase = s.phase := rfl
@[simp] theorem State.toggleSeq_seq : s.toggleSeq.seq = !s.seq := rfl
@[simp] theorem State.toggleSeq_txbuf : s.toggleSeq.txbuf = s.txbuf := rfl
@[simp] theorem State.toggleSeq_txlen : s.toggleSeq.txlen = s.txlen := rfl
@[simp] theorem State.toggleSeq_txPlen : s.toggleSeq.txPlen = s.txPlen := rfl
@[simp] theorem State.toggleSeq_retry : s.toggleSeq.retry = s.retry := rfl
@[simp] theorem State.toggleSeq_timerArmed : s.toggleSeq.timerArmed = s.timerArmed := rfl
@[simp] theorem State.toggleSeq_report : s.toggleSeq.report = s.report := rfl
@[simp] theorem State.toggleSeq_rx : s.toggleSeq.rx = s.rx := rfl
@[simp] theorem State.toggleSeq_stats : s.toggleSeq.stats = s.stats := rfl
@[simp] theorem State.toggleSeq_env : s.toggleSeq.env = s.env := rfl

/-! ### State.countSent -/

@[simp] theorem State.countSent_params : s.countSent.params = s.params := rfl
@[simp] theorem State.countSent_role : s.countSent.role = s.role := rfl
@[simp] theorem State.countSent_maxRetx : s.countSent.maxRetx = s.maxRetx := rfl
@[simp] theorem State.countSent_timeoutS : s.countSent.timeoutS = s.timeoutS := rfl
@[simp] theorem State.countSent_session : s.countSent.session = s.session := rfl
@[simp] theorem State.countSent_failed : s.countSent.failed = s.failed := rfl
@[simp] theorem State.countSent_phase : s.countSent.phase = s.phase := rfl
@[simp] theorem State.countSent_seq : s.countSent.seq = s.seq := rfl
@[simp] theorem State.countSent_txbuf : s.countSent.txbuf = s.txbuf := rfl
@[simp] theorem State.countSent_txlen : s.countSent.txlen = s.txlen := rfl
@[simp] theorem State.countSent_txPlen : s.countSent.txPlen = s.txPlen := rfl
@[simp] theorem State.countSent_retry : s.countSent.retry = s.retry := rfl
@[simp] theorem State.countSent_timerArmed : s.countSent.timerArmed = s.timerArmed := rfl
@[simp] theorem State.countSent_report : s.countSent.report = s.report := rfl
@[simp] theorem State.countSent_rx : s.countSent.rx = s.rx := rfl
@[simp] theorem State.countSent_stats_framesSent : s.countSent.stats.framesSent = bump s.params s.stats.framesSent := rfl
@[simp] theorem State.countSent_stats_retransmissions : s.countSent.stats.retransmissions = s.stats.retransmissions := rfl
@[simp] theorem State.countSent_stats_timeouts : s.countSent.stats.timeouts = s.stats.timeouts := rfl
@[simp] theorem State.countSent_stats_errors : s.countSent.stats.errors = s.stats.errors := rfl
@[simp] theorem State.countSent_env : s.countSent.env = s.env := rfl

/-! ### State.countRetransmission -/

@[simp] theorem State.countRetransmission_params : s.countRetransmission.params = s.params := rfl
@[simp] theorem State.countRetransmission_role : s.countRetransmission.role = s.role := rfl
@[simp] theorem State.countRetransmission_maxRetx : s.countRetransmission.maxRetx = s.maxRetx := rfl
@[simp] theorem State.countRetransmission_timeoutS : s.countRetransmission.timeoutS = s.timeoutS := rfl
@[simp] theorem State.countRetransmission_session : s.countRetransmission.session = s.session := rfl
@[simp] theorem State.countRetransmission_failed : s.countRetransmission.failed = s.failed := rfl
@[simp] theorem State.countRetransmission_phase : s.countRetransmission.phase = s.phase := rfl
@[simp] theorem State.countRetransmission_seq : s.countRetransmission.seq = s.seq := rfl
@[simp] theorem State.countRetransmission_txbuf : s.countRetransmission.txbuf = s.txbuf := rfl
@[simp] theorem State.countRetransmission_txlen : s.countRetransmission.txlen = s.txlen := rfl
@[simp] theorem State.countRetransmission_txPlen : s.countRetransmission.txPlen = s.txPlen := rfl
@[simp] theorem State.countRetransmission_retry : s.countRetransmission.retry = s.retry := rfl
@[simp] theorem State.countRetransmission_timerArmed : s.countRetransmission.timerArmed = s.timerArmed := rfl
@[simp] theorem State.countRetransmission_report : s.countRetransmission.report = s.report := rfl
@[simp] theorem State.countRetransmission_rx : s.countRetransmission.rx = s.rx := rfl
@[simp] theorem State.countRetransmission_stats_framesSent : s.countRetransmission.stats.framesSent = s.stats.framesSent := rfl
@[simp] theorem State.countRetransmission_stats_retransmissions : s.countRetransmission.stats.retransmissions = bump s.params s.stats.retransmissions := rfl
@[simp] theorem State.countRetransmission_stats_timeouts : s.countRetransmission.stats.timeouts = s.stats.timeouts := rfl
@[simp] theorem State.countRetransmission_stats_errors : s.countRetransmission.stats.errors = s.stats.errors := rfl
@[simp] theorem State.countRetransmission_env : s.countRetransmission.env = s.env := rfl

/-! ### State.countTimeout -/

@[simp] theorem State.countTimeout_params : s.countTimeout.params = s.params := rfl
@[simp] theorem State.countTimeout_role : s.countTimeout.role = s.role := rfl
@[simp] theorem State.countTimeout_maxRetx : s.countTimeout.maxRetx = s.maxRetx := rfl
@[simp] theorem State.countTimeout_timeoutS : s.countTimeout.timeoutS = s.timeoutS := rfl
@[simp] theorem State.countTimeout_session : s.countTimeout.session = s.session := rfl
@[simp] theorem State.countTimeout_failed : s.countTimeout.failed = s.failed := rfl
@[simp] theorem State.countTimeout_phase : s.countTimeout.phase = s.phase := rfl
@[simp] theorem State.countTimeout_seq : s.countTimeout.seq = s.seq := rfl
@[simp] theorem State.countTimeout_txbuf : s.countTimeout.txbuf = s.txbuf := rfl
@[simp] theorem State.countTimeout_txlen : s.countTimeout.txlen = s.txlen := rfl
@[simp] theorem State.countTimeout_txPlen : s.countTimeout.txPlen = s.txPlen := rfl
@[simp] theorem State.countTimeout_retry : s.countTimeout.retry = s.retry := rfl
@[simp] theorem State.countTimeout_timerArmed : s.countTimeout.timerArmed = s.timerArmed := rfl
@[simp] theorem State.countTimeout_report : s.countTimeout.report = s.report := rfl
@[simp] theorem State.countTimeout_rx : s.countTimeout.rx = s.rx := rfl
@[simp] theorem State.countTimeout_stats_framesSent : s.countTimeout.stats.framesSent = s.stats.framesSent := rfl
@[simp] theorem State.countTimeout_stats_retransmissions : s.countTimeout.stats.retransmissions = s.stats.retransmissions := rfl
@[simp] theorem State.countTimeout_stats_timeouts : s.countTimeout.stats.timeouts = bump s.params s.stats.timeouts := rfl
@[simp] theorem State.countTimeout_stats_errors : s.countTimeout.stats.errors = s.stats.errors := rfl
@[simp] theorem State.countTimeout_env : s.countTimeout.env = s.env := rfl

/-! ### State.countError -/

@[simp] theorem State.countError_params : s.countError.params = s.params := rfl
@[simp] theorem State.countError_role : s.countError.role = s.role := rfl
@[simp] theorem State.countError_maxRetx : s.countError.maxRetx = s.maxRetx := rfl
@[simp] theorem State.countError_timeoutS : s.countError.timeoutS = s.timeoutS := rfl
@[simp] theorem State.countError_session : s.countError.session = s.session := rfl
@[simp] theorem State.countError_failed : s.countError.failed = s.failed := rfl
@[simp] theorem State.countError_phase : s.countError.phase = s.phase := rfl
@[simp] theorem State.countError_seq : s.countError.seq = s.seq := rfl
@[simp] theorem State.countError_txbuf : s.countError.txbuf = s.txbuf := rfl
@[simp] theorem State.countError_txlen : s.countError.txlen = s.txlen := rfl
@[simp] theorem State.countError_txPlen : s.countError.txPlen = s.txPlen := rfl
@[simp] theorem State.countError_retry : s.countError.retry = s.retry := rfl
@[simp] theorem State.countError_timerArmed : s.countError.timerArmed = s.timerArmed := rfl
@[simp] theorem State.countError_report : s.countError.report = s.report := rfl
@[simp] theorem State.countError_rx : s.countError.rx = s.rx := rfl
@[simp] theorem State.countError_stats_framesSent : s.countError.stats.framesSent = s.stats.framesSent := rfl
@[simp] theorem State.countError_stats_retransmissions : s.countError.stats.retransmissions = s.stats.retransmissions := rfl
@[simp] theorem State.countError_stats_timeouts : s.countError.stats.timeouts = s.stats.timeouts := rfl
@[simp] theorem State.countError_stats_errors : s.countError.stats.errors = bump s.params s.stats.errors := rfl
@[simp] theorem State.countError_env : s.countError.env = s.env := rfl

/-! ### Receiver.init -/

@[simp] theorem Receiver.init_state (r : Receiver) : r.init.state = .idle := rfl
@[simp] theorem Receiver.init_a (r : Receiver) : r.init.a = r.a := rfl
@[simp] theorem Receiver.init_c (r : Receiver) : r.init.c = r.c := rfl
@[simp] theorem Receiver.init_kind (r : Receiver) : r.init.kind = r.kind := rfl
@[simp] theorem Receiver.init_dup (r : Receiver) : r.init.dup = false := rfl
@[simp] theorem Receiver.init_escPend (r : Receiver) : r.init.escPend = false := rfl
@[simp] theorem Receiver.init_acc (r : Receiver) : r.init.acc = r.acc := rfl
@[simp] theorem Receiver.init_len (r : Receiver) : r.init.len = 0 := rfl

end Sys2Proof.Machine
end

