-- ==== Sys2Proof/Laws/Ops.lean ====
section
/-! SUPPORT. What each shared operation can do, said once: the shared procedures of the controller, a command, a
received octet, a run of octets, a step. Later proofs cite these and do not unfold the operations. -/

namespace Sys2Proof.Machine

variable (s : State)

/-! ## Answers and buffers -/

theorem answer_eq_of_env {s t : State} (ha : s.env.answers = t.env.answers) (hn : s.env.asks = t.env.asks) :
    s.answer = t.answer := by
  simp only [State.answer, ha, hn]

@[simp] theorem loadCells_take (cells f : Octets) : (loadCells cells f).take f.length = f := by
  simp [loadCells]

theorem loadCells_length (cells f : Octets) : (loadCells cells f).length = max cells.length f.length := by
  simp [loadCells]; omega

/-- The frame in `TXBUF` right after it is loaded (10_state.md R29). -/
@[simp] theorem loadTx_txFrame (f : Octets) : (s.loadTx f).txFrame = f := by simp [State.txFrame]

@[simp] theorem cancelIfArmed_of_armed (h : s.timerArmed = true) : s.cancelIfArmed = s.timerCancel := by
  simp [State.cancelIfArmed, h]

@[simp] theorem cancelIfArmed_of_disarmed (h : s.timerArmed = false) : s.cancelIfArmed = s := by
  simp [State.cancelIfArmed, h]

/-- `cancelIfArmed` in one record: the timer is off, and one action was emitted if it was on. -/
theorem cancelIfArmed_eq : s.cancelIfArmed =
    { s with timerArmed := false,
             env := { s.env with actions := s.env.actions ++ if s.timerArmed then [.timerCancel] else [] } } := by
  cases h : s.timerArmed with
  | true => rw [cancelIfArmed_of_armed s h]; simp [State.timerCancel, State.emit]
  | false => rw [cancelIfArmed_of_disarmed s h]; cases s; simp_all

/-! ## Shared procedures (43_arq_controller.md section 2) -/

theorem write_ok (f : Octets) (k : State → State) (h : s.answer = .ok) :
    write f k s = k (s.chanAsk (.chanWrite f .ok)).countSent := by simp [write, h]

theorem write_error (f : Octets) (k : State → State) (h : s.answer = .error) :
    write f k s = channelFail (s.chanAsk (.chanWrite f .error)) := by simp [write, h]

/-- Everything a write can do: the rest of the rule with the frame counted, or `ChannelFail`. -/
theorem write_cases (f : Octets) (k : State → State) :
    (s.answer = .ok ∧ write f k s = k (s.chanAsk (.chanWrite f .ok)).countSent) ∨
    (s.answer = .error ∧ write f k s = channelFail (s.chanAsk (.chanWrite f .error))) := by
  cases h : s.answer with
  | ok => exact .inl ⟨rfl, write_ok s f k h⟩
  | error => exact .inr ⟨rfl, write_error s f k h⟩

/-- The state `ChannelFail` and `Exhausted` start from: timer off, one more error, receiver initialised. -/
def failing : State := s.cancelIfArmed.countError.rxInit

/-! One lemma per field of that state. -/

@[simp] theorem failing_params : (failing s).params = s.params := by simp [failing, cancelIfArmed_eq]
@[simp] theorem failing_role : (failing s).role = s.role := by simp [failing, cancelIfArmed_eq]
@[simp] theorem failing_maxRetx : (failing s).maxRetx = s.maxRetx := by simp [failing, cancelIfArmed_eq]
@[simp] theorem failing_timeoutS : (failing s).timeoutS = s.timeoutS := by simp [failing, cancelIfArmed_eq]
@[simp] theorem failing_session : (failing s).session = s.session := by simp [failing, cancelIfArmed_eq]
@[simp] theorem failing_failed : (failing s).failed = s.failed := by simp [failing, cancelIfArmed_eq]
@[simp] theorem failing_phase : (failing s).phase = s.phase := by simp [failing, cancelIfArmed_eq]
@[simp] theorem failing_seq : (failing s).seq = s.seq := by simp [failing, cancelIfArmed_eq]
@[simp] theorem failing_txbuf : (failing s).txbuf = s.txbuf := by simp [failing, cancelIfArmed_eq]
@[simp] theorem failing_txlen : (failing s).txlen = s.txlen := by simp [failing, cancelIfArmed_eq]
@[simp] theorem failing_txPlen : (failing s).txPlen = s.txPlen := by simp [failing, cancelIfArmed_eq]
@[simp] theorem failing_retry : (failing s).retry = s.retry := by simp [failing, cancelIfArmed_eq]
@[simp] theorem failing_report : (failing s).report = s.report := by simp [failing, cancelIfArmed_eq]
@[simp] theorem failing_timerArmed : (failing s).timerArmed = false := by simp [failing, cancelIfArmed_eq]
@[simp] theorem failing_rx : (failing s).rx = s.rx.init := by simp [failing, cancelIfArmed_eq, State.rxInit]
@[simp] theorem failing_stats :
    (failing s).stats = { s.stats with errors := bump s.params s.stats.errors } := by
  simp [failing, cancelIfArmed_eq, State.rxInit, State.countError]
@[simp] theorem failing_env : (failing s).env =
    { s.env with actions := s.env.actions ++ if s.timerArmed then [.timerCancel] else [] } := by
  simp [failing, cancelIfArmed_eq, State.rxInit, State.countError]

theorem channelFail_releases (h : s.session = .connecting ∨ s.session = .closing) :
    channelFail s = ({ (failing s).chanClose with session := .closed } : State).result (.err .channelError) := by
  have e := failing_session s
  simp only [failing] at e ⊢
  rcases h with h | h <;> simp only [channelFail, e, h]

theorem channelFail_open (h : s.session = .open_) :
    channelFail s = ({ failing s with failed := true } : State).result (.err .channelError) := by
  have e := failing_session s
  simp only [failing] at e ⊢
  simp only [channelFail, e, h]

theorem channelFail_closed (h : s.session = .closed) :
    channelFail s = (failing s).result (.err .channelError) := by
  have e := failing_session s
  simp only [failing] at e ⊢
  simp only [channelFail, e, h]

theorem retryOrFail_spent (w : TimedWait) (h : s.maxRetx ≤ s.retry + 1) :
    retryOrFail w s = exhausted w ({ s with retry := s.retry + 1 } : State).cancelIfArmed := by
  simp only [retryOrFail, cancelIfArmed_eq]
  rw [if_pos h]

theorem retryOrFail_resends (w : TimedWait) (h : s.retry + 1 < s.maxRetx) :
    retryOrFail w s = resend ({ s with retry := s.retry + 1 } : State).cancelIfArmed := by
  simp only [retryOrFail, cancelIfArmed_eq]
  rw [if_neg (by omega)]

/-! ## Commands (43_arq_controller.md R200) -/

theorem command_busy (legal : Bool) (body : State → State) (h : s.phase ≠ .none) :
    command legal body s = .refused .commandWhileBusy := by simp [command, h]

theorem command_legal (body : State → State) (h : s.phase = .none) : command true body s = .next (body s) := by
  simp [command, h]

theorem command_illegal (body : State → State) (h : s.phase = .none) :
    command false body s = .next (s.result (.err .invalidOperation)) := by simp [command, h]

/-- What a command did when it answered a next state. -/
theorem command_next {legal : Bool} {body : State → State} {t : State} (h : command legal body s = .next t) :
    s.phase = .none ∧ t = if legal then body s else s.result (.err .invalidOperation) := by
  by_cases hp : s.phase = .none
  · simp only [command, if_pos hp] at h
    injection h with h
    exact ⟨hp, h.symm⟩
  · rw [command_busy s legal body hp] at h; cases h

/-! ## Received octets -/

theorem rxByte_held (b : Octet) (h : s.phase = .none) : rxByte b s = .next (s.hold b) := by simp [rxByte, h]

theorem rxByte_read (b : Octet) (h : s.phase ≠ .none) :
    rxByte b s = onOutcome (rxStep s.params s.phase s.seq b s.rx).1
      { s with rx := (rxStep s.params s.phase s.seq b s.rx).2 } := by simp [rxByte, h]

theorem onOutcome_quiet {o : RxOutcome} (h : o.quiet) : onOutcome o s = .next s := by
  rcases h with rfl | rfl <;> rfl

/-! The nine pairs of 43_arq_controller.md R202 that have a rule. -/

theorem onOutcome_acceptUA (h : s.phase = .awaitUA) : onOutcome .accepted s = .next (acceptUA s) := by
  simp [onOutcome, h]
theorem onOutcome_acceptSET (h : s.phase = .awaitSET) : onOutcome .accepted s = .next (acceptSET s) := by
  simp [onOutcome, h]
theorem onOutcome_acceptAck (h : s.phase = .awaitAck) : onOutcome .accepted s = .next (acceptAck s) := by
  simp [onOutcome, h]
theorem onOutcome_rejectedAck (h : s.phase = .awaitAck) : onOutcome .rejected s = .next (rejectedAck s) := by
  simp [onOutcome, h]
theorem onOutcome_acceptDISC (h : s.phase = .awaitData) : onOutcome .accepted s = .next (acceptDISC s) := by
  simp [onOutcome, h]
theorem onOutcome_acceptData (h : s.phase = .awaitData) : onOutcome .dataAccepted s = .next (acceptData s) := by
  simp [onOutcome, h]
theorem onOutcome_duplicateData (h : s.phase = .awaitData) : onOutcome .duplicate s = .next (duplicateData s) := by
  simp [onOutcome, h]
theorem onOutcome_mismatchData (h : s.phase = .awaitData) : onOutcome .bcc2Mismatch s = .next (mismatchData s) := by
  simp [onOutcome, h]
theorem onOutcome_acceptEcho (h : s.phase = .awaitDISC) : onOutcome .accepted s = .next (acceptEcho s) := by
  simp [onOutcome, h]

/-- An octet that is no news: only the receiver moves (43_arq_controller.md R202). -/
theorem rxByte_quiet {b : Octet} {o : RxOutcome} {r : Receiver} (hp : s.phase ≠ .none)
    (h : rxStep s.params s.phase s.seq b s.rx = (o, r)) (hq : o.quiet) :
    rxByte b s = .next { s with rx := r } := by
  rw [rxByte_read s b hp, h]; exact onOutcome_quiet _ hq

@[simp] theorem deliver_nil : deliver [] s = .next s := rfl

theorem deliver_cons (b : Octet) (bs : Octets) : deliver (b :: bs) s =
    match rxByte b s with
    | .next t => deliver bs t
    | .fault e => .fault e
    | .refused e => .refused e := rfl

theorem deliver_cons_next {s t : State} {b : Octet} (bs : Octets) (h : rxByte b s = .next t) :
    deliver (b :: bs) s = deliver bs t := by rw [deliver_cons, h]

theorem deliver_singleton (b : Octet) : deliver [b] s = rxByte b s := by
  rw [deliver_cons]; cases rxByte b s <;> rfl

theorem deliver_append (xs ys : Octets) : deliver (xs ++ ys) s =
    match deliver xs s with
    | .next t => deliver ys t
    | .fault e => .fault e
    | .refused e => .refused e := by
  induction xs generalizing s with
  | nil => rfl
  | cons x xs ih =>
    rw [List.cons_append, deliver_cons, deliver_cons]
    cases rxByte x s with
    | next t => exact ih t
    | fault e => rfl
    | refused e => rfl

/-- A run of octets without news moves the receiver only. -/
theorem deliver_quiet (xs ys : Octets) (hp : s.phase ≠ .none)
    (hq : ∀ o ∈ (rxRun s.params s.phase s.seq xs s.rx).1, o.quiet) :
    deliver (xs ++ ys) s = deliver ys { s with rx := (rxRun s.params s.phase s.seq xs s.rx).2 } := by
  induction xs generalizing s with
  | nil => rfl
  | cons x xs ih =>
    rw [List.cons_append]
    have h1 : (rxStep s.params s.phase s.seq x s.rx).1.quiet := hq _ (by simp [rxRun])
    rw [deliver_cons_next _ (rxByte_quiet s hp rfl h1)]
    exact ih { s with rx := (rxStep s.params s.phase s.seq x s.rx).2 } hp
      (fun o ho => hq o (by simp [rxRun]; exact .inr ho))

/-- Octets that arrive while no wait is in progress stay with the environment, in order (20_memory.md R62). -/
theorem deliver_held (bs : Octets) (h : s.phase = .none) :
    deliver bs s = .next { s with env := { s.env with held := s.env.held ++ bs } } := by
  induction bs generalizing s with
  | nil => simp
  | cons b bs ih =>
    rw [deliver_cons_next _ (rxByte_held s b h), ih (s.hold b) h]
    simp [State.hold]

/-! ## Steps -/

theorem step_idle (h : s.env.inputs = []) : step s = .next s := by simp [step, h]

theorem step_event {e : Event} {rest : List Event} (h : s.env.inputs = e :: rest) :
    step s = runEvent e (s.takeInput rest) := by simp [step, h]

theorem runEvent_decoded {w : Words} {i : Instr} (h : decode s.params w = .ok i) :
    runEvent (.word w) s = exec i s := by simp [runEvent, h]

theorem runEvent_undecoded {w : Words} {e : Reject} (h : decode s.params w = .error e) :
    runEvent (.word w) s = undecoded w s := by simp [runEvent, h]

end Sys2Proof.Machine
end

