-- ==== Sys2Proof/Laws/Invariant.lean ====
section
/-! SUPPORT. What the shared operations do to the invariant of Safety.lean: the receiver's part of it, the part that
every failing path needs, and one lemma per operation. -/

namespace Sys2Proof.Machine

variable {s : State}

/-! ## Lengths of frames (40_codec.md R128, 00_scope.md R8) -/

theorem stuffOctet_length_le (b : Octet) : (stuffOctet b).length ≤ 2 := by
  rcases stuffOctet_cases b with ⟨-, h⟩ | ⟨-, -, h⟩ <;> simp [h]

theorem stuff_length_le (s : Octets) : (stuff s).length ≤ 2 * s.length := by
  induction s with
  | nil => simp
  | cons b s ih => have := stuffOctet_length_le b; simp; omega

/-- Every information frame whose payload fits `MAX_PAYLOAD` fits `TXBUF`. -/
theorem infoFrame_length_le {p : Params} {payload : Octets} (h : payload.length ≤ p.maxPayload) (a c : Octet) :
    (infoFrame a c payload).length ≤ p.txCap := by
  rw [Params.txCap]
  split
  · have : payload = [] := List.eq_nil_of_length_eq_zero (by omega)
    subst this
    have e : (infoFrame a c []).length = 6 := rfl
    omega
  · have := stuff_length_le (payload ++ [bcc payload])
    simp [infoFrame, dataRegion] at this ⊢
    omega

theorem ctrl_length_le (p : Params) (a c : Octet) : (ctrl a c).length ≤ p.txCap := by
  rw [ctrl_length, Params.txCap]; split <;> omega

/-! ## The parts of the invariant -/

/-- What every failing path needs of the state it starts from, and keeps. -/
structure Fits (s : State) : Prop where
  buffers : s.params.buffersFit
  retryBound : s.retry ≤ max s.maxRetx 1
  accCells : s.rx.acc.length ≤ s.params.accCap
  txCells : s.txlen ≤ s.txbuf.length ∧ s.txbuf.length ≤ s.params.txCap
  failed : s.failed = true → s.session = .open_

theorem Inv.fits (h : Inv s) : Fits s :=
  ⟨h.buffers, h.retryBound, h.accCells.2, h.txCells, fun hf => (h.failed hf).1⟩

theorem Inv.rxInv (h : Inv s) : RxInv s.params s.phase s.seq s.rx :=
  ⟨h.accCells.2, h.accCells.1, h.escape, h.lenState, h.notDone, h.latched⟩

theorem Inv.failed_false (h : Inv s) (hp : s.phase ≠ .none) : s.failed = false := by
  cases hf : s.failed with
  | false => rfl
  | true => exact absurd (h.failed hf).2 hp

theorem Inv.timer_none (h : Inv s) (hp : s.phase = .none) : s.timerArmed = false := by
  rw [h.timer, hp]; rfl

/-- A receiver step inside a wait keeps the invariant. -/
theorem Inv.with_rx (h : Inv s) (hp : s.phase ≠ .none) {r : Receiver} (hr : RxInv s.params s.phase s.seq r) :
    Inv { s with rx := r } where
  buffers := h.buffers
  session := h.session
  role := h.role
  timer := h.timer
  quiet hn := absurd hn hp
  failed := h.failed
  retryBound := h.retryBound
  retryLeft := h.retryLeft
  notDone := hr.notDone
  escape := hr.escape
  lenState := hr.lenState
  lenBound := Nat.le_trans hr.lenCells hr.cells
  accCells := ⟨hr.lenCells, hr.cells⟩
  txCells := h.txCells
  txFrame := h.txFrame
  latched := hr.latched

/-- A state whose receiver was just initialised. -/
theorem Inv.of_init (hf : Fits s) (hses : sessionFits s.phase s.session = true)
    (hrole : roleFits s.phase s.session s.role = true) (htimer : s.timerArmed = s.phase.timed.isSome)
    (hfail : s.failed = true → s.phase = .none)
    (hleft : s.phase.timed.isSome = true → s.retry < max s.maxRetx 1) (htx : txFits s)
    {r : Receiver} (hr : s.rx = r.init) : Inv s where
  buffers := hf.buffers
  session := hses
  role := hrole
  timer := htimer
  quiet _ := by rw [hr]; rfl
  failed h := ⟨hf.failed h, hfail h⟩
  retryBound := hf.retryBound
  retryLeft := hleft
  notDone := by rw [hr]; simp [Receiver.init]
  escape := by rw [hr]; simp [Receiver.init]
  lenState := by rw [hr]; simp [Receiver.init]
  lenBound := by rw [hr]; exact Nat.zero_le _
  accCells := ⟨by rw [hr]; exact Nat.zero_le _, hf.accCells⟩
  txCells := hf.txCells
  txFrame := htx
  latched := by rw [hr]; exact latched_of_early (.inl rfl)

/-- A command that ends: no wait, no timer, the receiver just initialised. -/
theorem Inv.of_ended (hf : Fits s) (hp : s.phase = .none) (hses : s.session = .closed ∨ s.session = .open_ ∨
      (s.session = .closing ∧ s.role = .responder)) (htimer : s.timerArmed = false)
    {r : Receiver} (hr : s.rx = r.init) : Inv s := by
  refine Inv.of_init hf ?_ ?_ (by rw [htimer, hp]; rfl) (fun _ => hp) (by rw [hp]; simp [Phase.timed])
    (by simp [txFits, hp]) hr <;> rw [hp]
  · rcases hses with h | h | ⟨h, -⟩ <;> rw [h] <;> rfl
  · rcases hses with h | h | ⟨h, hr⟩
    · rw [h]; rfl
    · rw [h]; rfl
    · rw [h, hr]; rfl

/-! ## Shared procedures -/

/-- `FAILED` is 0 in every session state but `Open`. -/
theorem Fits.failed_false (hf : Fits s) (h : s.session ≠ .open_) : s.failed = false := by
  cases hs : s.failed with
  | false => rfl
  | true => exact absurd (hf.failed hs) h

/-- A state that differs in nothing that `Fits` reads, but for `FAILED`. -/
theorem Fits.congr {t : State} (hf : Fits s) (hp : t.params = s.params) (hr : t.retry = s.retry)
    (hm : t.maxRetx = s.maxRetx) (ha : t.rx.acc = s.rx.acc) (hl : t.txlen = s.txlen) (hb : t.txbuf = s.txbuf)
    (hfail : t.failed = true → t.session = .open_) : Fits t where
  buffers := by rw [hp]; exact hf.buffers
  retryBound := by rw [hr, hm]; exact hf.retryBound
  accCells := by rw [hp, ha]; exact hf.accCells
  txCells := by rw [hp, hl, hb]; exact hf.txCells
  failed := hfail

theorem channelFail_inv (hf : Fits s) : Inv (channelFail s) := by
  have released : s.session = .connecting ∨ s.session = .closing → Inv (channelFail s) := by
    intro hs
    have hff : s.failed = false := hf.failed_false (by rcases hs with h | h <;> simp [h])
    rw [channelFail_releases s hs]
    refine Inv.of_ended (r := s.rx) (hf.congr ?_ ?_ ?_ ?_ ?_ ?_ ?_) ?_ (.inl ?_) ?_ ?_ <;> simp [Receiver.init, hff]
  cases hs : s.session with
  | closed =>
    rw [channelFail_closed s hs]
    refine Inv.of_ended (r := s.rx) (hf.congr ?_ ?_ ?_ ?_ ?_ ?_ ?_) ?_ (.inl ?_) ?_ ?_ <;> simp [Receiver.init, hs]
    exact hf.failed_false (by simp [hs])
  | open_ =>
    rw [channelFail_open s hs]
    refine Inv.of_ended (r := s.rx) (hf.congr ?_ ?_ ?_ ?_ ?_ ?_ ?_) ?_ (.inr (.inl ?_)) ?_ ?_ <;>
      simp [Receiver.init, hs]
  | connecting => exact released (.inl hs)
  | closing => exact released (.inr hs)

/-- A write keeps the invariant when the rest of its rule does. -/
theorem write_inv (hf : Fits s) (f : Octets) {k : State → State}
    (hk : s.answer = .ok → Inv (k (s.chanAsk (.chanWrite f .ok)).countSent)) : Inv (write f k s) := by
  rcases write_cases s f k with ⟨ha, h⟩ | ⟨-, h⟩ <;> rw [h]
  · exact hk ha
  · exact channelFail_inv ⟨hf.buffers, hf.retryBound, hf.accCells, hf.txCells, hf.failed⟩

/-- The budget is spent: the command ends, with the timer off as `RetryOrFail` left it. -/
theorem exhausted_inv (hf : Fits s) (w : TimedWait) (htimer : s.timerArmed = false)
    (hack : w = .ack → s.session = .open_) (hother : w ≠ .ack → s.failed = false) : Inv (exhausted w s) := by
  cases w with
  | ack =>
    refine Inv.of_ended (r := s.rx) (hf.congr ?_ ?_ ?_ ?_ ?_ ?_ ?_) ?_ (.inr (.inl ?_)) ?_ ?_ <;>
      simp [exhausted, State.rxInit, Receiver.init, htimer, hack]
  | ua =>
    refine Inv.of_ended (r := s.rx) (hf.congr ?_ ?_ ?_ ?_ ?_ ?_ ?_) ?_ (.inl ?_) ?_ ?_ <;>
      simp [exhausted, State.rxInit, Receiver.init, htimer, hother]
  | disc =>
    refine Inv.of_ended (r := s.rx) (hf.congr ?_ ?_ ?_ ?_ ?_ ?_ ?_) ?_ (.inl ?_) ?_ ?_ <;>
      simp [exhausted, State.rxInit, Receiver.init, htimer, hother]

/-- `txFits` reads the parameters, the phase, `SEQ`, the frame and `TX_PLEN` only. -/
theorem txFits_congr {t : State} (h : txFits s) (hp : t.params = s.params) (hph : t.phase = s.phase)
    (hq : t.seq = s.seq) (hf : t.txFrame = s.txFrame) (hl : t.txPlen = s.txPlen) : txFits t := by
  simp only [txFits, hp, hph, hq, hf, hl]
  exact h

/-- What `RetryOrFail` needs of the state it starts from: the invariant of a timed wait, whatever the timer. -/
structure InTimedWait (s : State) (w : TimedWait) : Prop where
  fits : Fits s
  timed : s.phase.timed = some w
  session : sessionFits s.phase s.session = true
  role : roleFits s.phase s.session s.role = true
  failed : s.failed = false
  left : s.retry < max s.maxRetx 1
  txFrame : txFits s

theorem Inv.inTimedWait (h : Inv s) {w : TimedWait} (hw : s.phase.timed = some w) : InTimedWait s w where
  fits := h.fits
  timed := hw
  session := h.session
  role := h.role
  failed := h.failed_false (by intro hp; rw [hp] at hw; cases hw)
  left := h.retryLeft (by rw [hw]; rfl)
  txFrame := h.txFrame

/-- `InTimedWait` does not read the timer, the statistics or the environment. -/
theorem InTimedWait.congr {t : State} {w : TimedWait} (h : InTimedWait s w) (armed : Bool) (st : Stats) (e : Env)
    (ht : t = { s with timerArmed := armed, stats := st, env := e }) : InTimedWait t w := by
  subst ht
  exact ⟨h.fits.congr rfl rfl rfl rfl rfl rfl h.fits.failed, h.timed, h.session, h.role, h.failed, h.left,
    txFits_congr h.txFrame rfl rfl rfl rfl rfl⟩

/-- A timed wait's session. -/
theorem InTimedWait.session_ack (h : InTimedWait s .ack) : s.session = .open_ := by
  have ht := h.timed
  have hs := h.session
  have hp : s.phase = .awaitAck := by cases hp : s.phase <;> rw [hp] at ht <;> first | rfl | cases ht
  rw [hp] at hs
  exact beq_iff_eq.mp hs

theorem resend_inv {w : TimedWait} (h : InTimedWait s w) : Inv (resend s) := by
  refine write_inv h.fits _ fun _ => ?_
  refine Inv.of_init (r := s.rx) (h.fits.congr ?_ ?_ ?_ ?_ ?_ ?_ ?_) ?_ ?_ ?_ ?_ ?_
    (txFits_congr h.txFrame ?_ ?_ ?_ ?_ ?_) ?_ <;>
    simp [State.rxInit, State.txFrame, Receiver.init, h.session, h.role, h.timed, h.failed]
  simpa using h.left

/-- `RetryOrFail` in a timed wait keeps the invariant (43_arq_controller.md R226, R227). -/
theorem retryOrFail_inv {w : TimedWait} (h : InTimedWait s w) : Inv (retryOrFail w s) := by
  have hleft := h.left
  have hretry : Fits ({ s with retry := s.retry + 1 } : State) :=
    ⟨h.fits.buffers, hleft, h.fits.accCells, h.fits.txCells, h.fits.failed⟩
  by_cases hb : s.maxRetx ≤ s.retry + 1
  · rw [retryOrFail_spent s w hb, cancelIfArmed_eq]
    refine exhausted_inv ?_ w rfl ?_ fun _ => h.failed
    · exact hretry.congr rfl rfl rfl rfl rfl rfl hretry.failed
    · rintro rfl
      exact h.session_ack
  · rw [retryOrFail_resends s w (by omega), cancelIfArmed_eq]
    refine resend_inv (w := w) ⟨?_, h.timed, h.session, h.role, h.failed, ?_,
      txFits_congr h.txFrame rfl rfl rfl rfl rfl⟩
    · exact hretry.congr rfl rfl rfl rfl rfl rfl hretry.failed
    · simp only
      omega

/-! ## Outcome rules (43_arq_controller.md R202) -/

/-- A rule that initialises the receiver and ends the command. -/
theorem rule_ended {t : State} (hf : Fits s) (hp : t.params = s.params) (hr : t.retry = s.retry ∨ t.retry = 0)
    (hm : t.maxRetx = s.maxRetx) (ha : t.rx = s.rx.init) (hl : t.txlen = s.txlen) (hb : t.txbuf = s.txbuf)
    (hfail : t.failed = false) (hph : t.phase = .none) (hses : t.session = .closed ∨ t.session = .open_ ∨
      (t.session = .closing ∧ t.role = .responder)) (htimer : t.timerArmed = false) : Inv t := by
  refine Inv.of_ended ⟨by rw [hp]; exact hf.buffers, ?_, by rw [ha, hp]; exact hf.accCells,
    by rw [hp, hl, hb]; exact hf.txCells, by simp [hfail]⟩ hph hses htimer ha
  have := hf.retryBound
  rw [hm]; rcases hr with h | h <;> omega

/-- The outcome of a receiver step in a wait has a rule, and the rule keeps the invariant. -/
theorem onOutcome_safe (h : Inv s) (hp : s.phase ≠ .none) {b : Octet} {o : RxOutcome} {r' : Receiver}
    (hstep : rxStep s.params s.phase s.seq b s.rx = (o, r')) :
    ∃ u, onOutcome o { s with rx := r' } = .next u ∧ Inv u := by
  obtain ⟨hacc, hq⟩ := rxStep_keeps h.rxInv hstep
  have hff := h.failed_false hp
  have hfits : Fits ({ s with rx := r' } : State) :=
    ⟨h.buffers, h.retryBound, hacc, h.txCells, fun hf => (h.failed hf).1⟩
  have hses := h.session
  have hrole := h.role
  have htimer := h.timer
  rcases rxStep_outcome_phase h.latched hstep with hq' | ⟨rfl, -⟩ | ⟨rfl, hph⟩ | ⟨ho, hph⟩
  · exact ⟨_, onOutcome_quiet _ hq', h.with_rx hp (hq hq')⟩
  · obtain ⟨ph, hph⟩ : ∃ ph, ph = s.phase := ⟨_, rfl⟩
    cases ph with
    | none => exact absurd hph.symm hp
    | awaitUA =>
      replace hph := hph.symm
      refine ⟨_, onOutcome_acceptUA _ hph, ?_⟩
      refine rule_ended hfits ?_ (.inr ?_) ?_ ?_ ?_ ?_ ?_ ?_ (.inr (.inl ?_)) ?_ <;>
        simp [acceptUA, State.rxInit, hff]
    | awaitSET =>
      replace hph := hph.symm
      refine ⟨_, onOutcome_acceptSET _ hph, ?_⟩
      refine write_inv hfits _ fun _ => ?_
      rw [hph] at htimer
      refine rule_ended hfits ?_ (.inl ?_) ?_ ?_ ?_ ?_ ?_ ?_ (.inr (.inl ?_)) ?_ <;>
        simp [State.rxInit, hff, htimer, Phase.timed]
    | awaitAck =>
      replace hph := hph.symm
      refine ⟨_, onOutcome_acceptAck _ hph, ?_⟩
      rw [hph] at hses
      have hs : s.session = .open_ := beq_iff_eq.mp hses
      refine rule_ended hfits ?_ (.inr ?_) ?_ ?_ ?_ ?_ ?_ ?_ (.inr (.inl ?_)) ?_ <;>
        simp [acceptAck, State.rxInit, hff, hs]
    | awaitData =>
      replace hph := hph.symm
      refine ⟨_, onOutcome_acceptDISC _ hph, ?_⟩
      rw [hph] at htimer hrole
      have hr : s.role = .responder := beq_iff_eq.mp hrole
      refine write_inv hfits _ fun _ => ?_
      refine rule_ended hfits ?_ (.inl ?_) ?_ ?_ ?_ ?_ ?_ ?_ (.inr (.inr ⟨?_, ?_⟩)) ?_ <;>
        simp [State.rxInit, hff, htimer, hr, Phase.timed]
    | awaitDISC =>
      replace hph := hph.symm
      refine ⟨_, onOutcome_acceptEcho _ hph, ?_⟩
      refine write_inv ?_ _ fun _ => ?_
      · exact ⟨hfits.buffers, Nat.zero_le _, hfits.accCells, hfits.txCells, fun h' => (h.failed h').1⟩
      refine rule_ended hfits ?_ (.inr ?_) ?_ ?_ ?_ ?_ ?_ ?_ (.inl ?_) ?_ <;>
        simp [State.rxInit, hff]
  · refine ⟨_, onOutcome_rejectedAck _ hph, ?_⟩
    have ht := h.inTimedWait (w := .ack) (by simp [hph, Phase.timed])
    exact retryOrFail_inv ⟨⟨h.buffers, h.retryBound, hacc, h.txCells, fun hf => (h.failed hf).1⟩, ht.timed,
      h.session, h.role, hff, ht.left, txFits_congr h.txFrame rfl rfl rfl rfl rfl⟩
  · rw [hph] at htimer hrole hses
    have hr : s.role = .responder := beq_iff_eq.mp hrole
    have hs : s.session = .open_ := beq_iff_eq.mp hses
    have waiting : ∀ {t : State}, Fits t → t.phase = .awaitData → t.session = .open_ → t.role = .responder →
        t.timerArmed = false → t.failed = false → t.rx = r'.init → Inv t := by
      intro t hf h1 h2 h3 h4 h5 h6
      refine Inv.of_init hf ?_ ?_ ?_ ?_ ?_ ?_ h6 <;>
        simp [h1, h2, h3, h4, h5, sessionFits, roleFits, Phase.timed, txFits]
    rcases ho with rfl | rfl | rfl
    · refine ⟨_, onOutcome_acceptData _ hph, ?_⟩
      refine write_inv hfits _ fun _ => ?_
      refine rule_ended hfits ?_ (.inl ?_) ?_ ?_ ?_ ?_ ?_ ?_ (.inr (.inl ?_)) ?_ <;>
        simp [State.rxInit, hff, htimer, hs, Phase.timed]
    · refine ⟨_, onOutcome_duplicateData _ hph, ?_⟩
      refine write_inv hfits _ fun _ => ?_
      refine waiting (hfits.congr ?_ ?_ ?_ ?_ ?_ ?_ ?_) ?_ ?_ ?_ ?_ ?_ ?_ <;>
        simp [State.rxInit, hff, htimer, hs, hr, hph, Phase.timed, Receiver.init]
    · refine ⟨_, onOutcome_mismatchData _ hph, ?_⟩
      refine write_inv ?_ _ fun _ => ?_
      · exact ⟨hfits.buffers, hfits.retryBound, hfits.accCells, hfits.txCells, hfits.failed⟩
      refine waiting (hfits.congr ?_ ?_ ?_ ?_ ?_ ?_ ?_) ?_ ?_ ?_ ?_ ?_ ?_ <;>
        simp [State.rxInit, hff, htimer, hs, hr, hph, Phase.timed, Receiver.init]


/-- The invariant says nothing of the environment. -/
theorem Inv.env (h : Inv s) (e : Env) : Inv { s with env := e } :=
  ⟨h.buffers, h.session, h.role, h.timer, h.quiet, h.failed, h.retryBound, h.retryLeft, h.notDone, h.escape,
    h.lenState, h.lenBound, h.accCells, h.txCells, txFits_congr h.txFrame rfl rfl rfl rfl rfl, h.latched⟩

/-- A received octet is safe, whatever it is. -/
theorem rxByte_safe (h : Inv s) (b : Octet) : ∃ u, rxByte b s = .next u ∧ Inv u := by
  by_cases hp : s.phase = .none
  · exact ⟨_, rxByte_held s b hp, h.env _⟩
  · rw [rxByte_read s b hp]
    exact onOutcome_safe h hp rfl

/-- So is a run of octets. -/
theorem deliver_safe (h : Inv s) (bs : Octets) : ∃ u, deliver bs s = .next u ∧ Inv u := by
  induction bs generalizing s with
  | nil => exact ⟨s, rfl, h⟩
  | cons b bs ih =>
    obtain ⟨u, hu, hi⟩ := rxByte_safe h b
    rw [deliver_cons, hu]
    exact ih hi

/-! ## Commands -/

theorem result_inv (h : Inv s) (hp : s.phase = .none) (r : Result) : Inv (s.result r) := by
  have e : s.result r = { s with env := (s.emit (.result r)).env } := by
    cases s; simp_all [State.result, State.emit]
  rw [e]
  exact h.env _

/-- A timed command: the frame is loaded, written, and the wait starts. -/
theorem startTimedWait_inv {f : Octets} {phase : Phase} (hf : Fits s) (hfl : f.length ≤ s.params.txCap)
    (hses : sessionFits phase s.session = true) (hrole : roleFits phase s.session s.role = true)
    (hfail : s.failed = false) (hr : s.retry = 0) (ht : phase.timed.isSome = true)
    (htx : ∀ t : State, t.params = s.params → t.phase = phase → t.seq = s.seq → t.txFrame = f →
      t.txPlen = s.txPlen → txFits t) : Inv (startTimedWait phase (s.loadTx f)) := by
  have hl : Fits (s.loadTx f) := by
    refine ⟨hf.buffers, hf.retryBound, hf.accCells, ?_, hf.failed⟩
    have := hf.txCells
    simp [State.loadTx, loadCells_length]
    omega
  have htxf : ∀ t : State, t.txbuf = (s.loadTx f).txbuf → t.txlen = (s.loadTx f).txlen → t.txFrame = f := by
    intro t h1 h2
    rw [State.txFrame, h1, h2]
    exact loadTx_txFrame s f
  refine write_inv hl _ fun _ => ?_
  refine Inv.of_init (r := s.rx) (hl.congr ?_ ?_ ?_ ?_ ?_ ?_ ?_) ?_ ?_ ?_ ?_ ?_
    (htx _ ?_ ?_ ?_ (htxf _ ?_ ?_) ?_) ?_ <;>
    simp [State.rxInit, Receiver.init, hses, hrole, hfail, hr, ht]

theorem openLink_inv (h : Inv s) (hp : s.phase = .none) (role : Role) (port : Octets) (speed n k : Nat) :
    Inv (openLink role port speed n k s) := by
  unfold openLink
  split
  · exact result_inv (h.env (s.chanAsk (.chanOpen port speed .error)).env) hp _
  · have hf : Fits (configure role n k (s.chanAsk (.chanOpen port speed .ok))) :=
      ⟨h.buffers, Nat.zero_le _, h.accCells.2, h.txCells, by simp [configure]⟩
    split
    · refine startTimedWait_inv hf (ctrl_length_le _ _ _) rfl rfl rfl rfl rfl fun t _ h2 _ h4 _ => ?_
      simp only [txFits, h2]
      exact h4
    · refine Inv.of_init (r := s.rx) (hf.congr ?_ ?_ ?_ ?_ ?_ ?_ ?_) ?_ ?_ ?_ ?_ ?_ ?_ ?_ <;>
        simp [openResponder, State.rxInit, Receiver.init, configure, sessionFits, roleFits, Phase.timed,
          h.timer_none hp, txFits]

theorem sendPayload_inv (h : Inv s) (hp : s.phase = .none) (hl : s.sendLegal = true) (payload : Octets) :
    Inv (sendPayload payload s) := by
  simp only [State.sendLegal, Bool.and_eq_true, beq_iff_eq, Bool.not_eq_true'] at hl
  obtain ⟨⟨h1, h2⟩, h3⟩ := hl
  unfold sendPayload
  split
  · exact result_inv h hp _
  · rename_i f hf
    have hb := buildDataFrame_ok hf
    refine startTimedWait_inv (s := { s with txPlen := payload.length, retry := 0 }) (phase := .awaitAck) (f := f)
      ⟨h.buffers, Nat.zero_le _, h.accCells.2, h.txCells, fun h' => (h.failed h').1⟩
      (by rw [hb.2]; exact infoFrame_length_le hb.1 _ _) (by simp [sessionFits, h1]) (by simp [roleFits, h2])
      h3 rfl rfl fun t e1 e2 e3 e4 e5 => ?_
    simp only [txFits, e2]
    exact ⟨payload, by rw [e1, e3, e4]; exact hf, e5.symm⟩

theorem closeLink_inv (h : Inv s) (hp : s.phase = .none) (report : Bool) : Inv (closeLink report s) := by
  unfold closeLink
  split
  · rename_i hr
    refine startTimedWait_inv (s := { s with failed := false, session := .closing, retry := 0, report := report })
      (phase := .awaitDISC) (f := ctrl Config.A_TX s.params.cDISC)
      ⟨h.buffers, Nat.zero_le _, h.accCells.2, h.txCells, nofun⟩ (ctrl_length_le _ _ _) rfl
      (by simp [roleFits, hr]) rfl rfl rfl fun t e1 e2 _ e4 _ => ?_
    simp only [txFits, e2]
    rw [e4, e1]
  · have hq := h.quiet hp
    have key : ∀ (e : Env) (st : Stats),
        Inv { s with failed := false, session := .closed, env := e, stats := st, phase := .none } := by
      intro e st
      refine ⟨h.buffers, rfl, rfl, by rw [h.timer_none hp]; rfl, fun _ => hq, nofun, h.retryBound,
        by simp [Phase.timed], h.notDone, h.escape, h.lenState, h.lenBound, h.accCells, h.txCells, ?_,
        latched_of_early (.inl hq)⟩
      simp [txFits]
    unfold closeResponder
    split <;> exact key _ _

end Sys2Proof.Machine
end

