-- ==== Sys2Proof/Laws/Frames.lean ====
section
/-! SUPPORT. What a whole frame does when it arrives in a wait: one lemma for control frames, one for information
frames, from any state of the receiver that is looking for a frame. -/

namespace Sys2Proof.Machine

variable {s : State}

theorem Inv.len_zero (h : Inv s) (hn : s.rx.state ≠ .payload) : s.rx.len = 0 := h.rxInv.len_zero hn
theorem Inv.esc_false (h : Inv s) (hn : s.rx.state ≠ .payload) : s.rx.escPend = false := h.rxInv.esc_false hn

/-- Only `AwaitData` receives a data region (43_arq_controller.md R201). -/
theorem Inv.not_payload (h : Inv s) (hp : s.phase ≠ .awaitData) : s.rx.state ≠ .payload := by
  intro hs
  have hc := h.latched.control (by simp [hs])
  rw [h.latched.kindPayload hs] at hc
  exact hp (accept_info_phase hc)

/-- A control frame that the wait accepts, whatever of a header came before (41_ctrl_receiver.md R160 (a)): the
rule of `Accepted` runs, once, at the closing flag. -/
theorem deliver_controlFrame (h : Inv s) (hwf : s.params.wf) (hp : s.phase ≠ .none) (hb : s.rx.state ≠ .bcc1)
    (hpl : s.rx.state ≠ .payload) {c : Octet} {d : Bool} (ha : accept s.params s.phase s.seq c = some (.ctrl, d)) :
    deliver (ctrl (expA s.params s.phase) c) s = onOutcome .accepted
      { s with rx := { s.rx with state := .done, a := expA s.params s.phase, c := c, kind := .ctrl, dup := d } } := by
  obtain ⟨o, hq, hr⟩ := rxRun_header hwf h.latched ⟨hb, hpl, h.notDone⟩ ha (h.len_zero hpl) (h.esc_false hpl)
  have e : ctrl (expA s.params s.phase) c = [Config.FLAG, expA s.params s.phase, c, expA s.params s.phase ^^^ c] ++ [Config.FLAG] := rfl
  rw [e, deliver_quiet s _ _ hp (by rw [hr]; simpa using ⟨hq, .inl rfl⟩), hr]
  rw [deliver_singleton, rxByte_read _ _ (by exact hp)]
  simp [rxStep, rxBcc1]

/-- An information frame of either sequence bit in `AwaitData`, with a checksum2 that need not match
(42_data_receiver.md R184 (a), (b)): one rule runs, at the closing flag, with the payload in the accumulator. -/
theorem deliver_informationFrame (h : Inv s) (hwf : s.params.wf) (hp : s.phase = .awaitData) (hb : s.rx.state ≠ .bcc1)
    (hpl : s.rx.state ≠ .payload) {c : Octet} {d : Bool} (ha : accept s.params s.phase s.seq c = some (.info, d))
    {payload : Octets} (hl : payload.length ≤ s.params.maxPayload) (chk : Octet) :
    deliver ([Config.FLAG, Config.A_TX, c, Config.A_TX ^^^ c] ++ stuff (payload ++ [chk]) ++ [Config.FLAG]) s =
      onOutcome (if bcc payload ≠ chk then .bcc2Mismatch else if d then .duplicate else .dataAccepted)
        { s with rx := { s.rx with
          state := .done, a := Config.A_TX, c := c, kind := .info, dup := d, escPend := false
          acc := payload ++ chk :: s.rx.acc.drop (payload.length + 1), len := payload.length } } := by
  have hne : s.phase ≠ .none := by simp [hp]
  have hA : expA s.params s.phase = Config.A_TX := by rw [hp]; rfl
  have hz := h.len_zero hpl
  have he := h.esc_false hpl
  obtain ⟨o, hq, hr⟩ := rxRun_header hwf h.latched ⟨hb, hpl, h.notDone⟩ ha hz he
  rw [hA] at hr
  have hs := rxRun_stuff (p := s.params) (phase := s.phase) (seq := s.seq)
    (r := { s.rx with state := .payload, a := Config.A_TX, c := c, kind := .info, dup := d }) (payload ++ [chk]) rfl he
    (by simp [hz]) (by simp [hz, Params.accCap]; omega)
  rw [List.append_assoc, deliver_quiet s _ _ hne (by rw [hr]; simpa using ⟨hq, .inl rfl⟩), hr]
  rw [deliver_quiet _ _ _ (by exact hne) (by simp only [if_true]; rw [hs]; simp [RxOutcome.quiet])]
  simp only [if_true]
  rw [hs, deliver_singleton, rxByte_read _ _ (by exact hne)]
  obtain ⟨e, hv⟩ := rxStep_closingFlag (p := s.params) (phase := s.phase) (seq := s.seq)
    (r := storeAll { s.rx with state := .payload, a := Config.A_TX, c := c, kind := .info, dup := d } (payload ++ [chk]))
    rfl he (n := payload.length) (by simp [storeAll, hz]) (by simp [storeAll, hz]) (payload := payload) (chk := chk)
    (by rw [storeAll_value _ _ (by simp [hz])]; simp [Receiver.value, hz])
  simp only [e]
  congr 2
  simp [storeAll, hz, he]
end Sys2Proof.Machine
end

