-- ==== Sys2Proof/Laws/Inputs.lean ====
section
/-! SUPPORT. Receiving octets neither reads nor changes the input events to come: each operation commutes with a
replacement of them. This is what makes a word of octets the same as its octets one event after another. -/

namespace Sys2Proof.Machine

/-- The state with other input events to come. -/
def withInputs (l : List Event) (s : State) : State := { s with env := { s.env with inputs := l } }

/-- A function on the next state, if there is one. -/
def mapNext (f : State → State) : Step → Step
  | .next s => .next (f s)
  | .fault e => .fault e
  | .refused e => .refused e

/-- A function on states that does not look at the input events. -/
abbrev Blind (k : State → State) : Prop := ∀ l s, k (withInputs l s) = withInputs l (k s)

theorem channelFail_blind : Blind channelFail := by
  intro l s
  have hx : ∀ ses, s.session = ses → (withInputs l s).session = ses := fun _ h => h
  cases hs : s.session with
  | closed =>
    rw [channelFail_closed s hs, channelFail_closed _ (hx _ hs)]
    simp [failing, cancelIfArmed_eq, withInputs, State.result, State.emit, State.countError, State.rxInit]
  | open_ =>
    rw [channelFail_open s hs, channelFail_open _ (hx _ hs)]
    simp [failing, cancelIfArmed_eq, withInputs, State.result, State.emit, State.countError, State.rxInit]
  | connecting =>
    rw [channelFail_releases s (.inl hs), channelFail_releases _ (.inl (hx _ hs))]
    simp [failing, cancelIfArmed_eq, withInputs, State.result, State.emit, State.countError, State.rxInit,
      State.chanClose, State.chanAsk, State.answer]
  | closing =>
    rw [channelFail_releases s (.inr hs), channelFail_releases _ (.inr (hx _ hs))]
    simp [failing, cancelIfArmed_eq, withInputs, State.result, State.emit, State.countError, State.rxInit,
      State.chanClose, State.chanAsk, State.answer]

theorem write_blind (f : Octets) {k : State → State} (hk : Blind k) : Blind (write f k) := by
  intro l s
  have ha : (withInputs l s).answer = s.answer := rfl
  rcases write_cases s f k with ⟨h0, h⟩ | ⟨h0, h⟩ <;> rw [h]
  · rw [write_ok _ _ _ (ha.trans h0), ← hk]; rfl
  · rw [write_error _ _ _ (ha.trans h0), ← channelFail_blind]; rfl

theorem exhausted_blind (w : TimedWait) : Blind (exhausted w) := by
  intro l s
  cases w <;> simp [exhausted, withInputs, State.result, State.emit, State.countError, State.rxInit,
    State.chanClose, State.chanAsk, State.answer]

theorem retryOrFail_blind (w : TimedWait) : Blind (retryOrFail w) := by
  intro l s
  by_cases h : s.maxRetx ≤ s.retry + 1
  · rw [retryOrFail_spent s w h, retryOrFail_spent (withInputs l s) w h, ← exhausted_blind]
    simp [cancelIfArmed_eq, withInputs]
  · rw [retryOrFail_resends s w (by omega), retryOrFail_resends (withInputs l s) w (by simp [withInputs]; omega),
      resend, resend, ← write_blind]
    · simp [cancelIfArmed_eq, withInputs, State.txFrame]
    · intro l t
      simp [withInputs, State.countRetransmission, State.timerArm, State.emit, State.rxInit]

section
variable (l : List Event) (s : State)

theorem acceptUA_withInputs : acceptUA (withInputs l s) = withInputs l (acceptUA s) := rfl

theorem acceptAck_withInputs : acceptAck (withInputs l s) = withInputs l (acceptAck s) := rfl

theorem rejectedAck_withInputs : rejectedAck (withInputs l s) = withInputs l (rejectedAck s) :=
  retryOrFail_blind _ l s.countError

theorem acceptSET_withInputs : acceptSET (withInputs l s) = withInputs l (acceptSET s) := by
  refine write_blind _ (fun l t => ?_) l s
  simp [withInputs, State.result, State.emit, State.rxInit]

theorem acceptDISC_withInputs : acceptDISC (withInputs l s) = withInputs l (acceptDISC s) := by
  refine write_blind _ (fun l t => ?_) l s
  simp [withInputs, State.result, State.emit, State.rxInit]

theorem acceptData_withInputs : acceptData (withInputs l s) = withInputs l (acceptData s) := by
  refine write_blind _ (fun l t => ?_) l s
  simp [withInputs, State.result, State.emit, State.rxInit, State.toggleSeq]

theorem duplicateData_withInputs : duplicateData (withInputs l s) = withInputs l (duplicateData s) :=
  write_blind (ctrl Config.A_TX (s.params.ackCode (!s.seq))) (fun _ _ => rfl) l s

theorem mismatchData_withInputs : mismatchData (withInputs l s) = withInputs l (mismatchData s) :=
  write_blind (ctrl Config.A_TX (s.params.rejCode s.seq)) (fun _ _ => rfl) l s.countError

theorem acceptEcho_withInputs : acceptEcho (withInputs l s) = withInputs l (acceptEcho s) := by
  refine write_blind _ (fun l t => ?_) l ({ s.timerCancel with retry := 0 } : State)
  simp [withInputs, State.result, State.emit, State.rxInit, State.chanClose, State.chanAsk, State.answer,
    State.closeValue]

theorem onOutcome_withInputs (o : RxOutcome) :
    onOutcome o (withInputs l s) = mapNext (withInputs l) (onOutcome o s) := by
  unfold onOutcome
  have hp : (withInputs l s).phase = s.phase := rfl
  rw [hp]
  split <;> simp [mapNext, acceptUA_withInputs, acceptSET_withInputs, acceptAck_withInputs,
    rejectedAck_withInputs, acceptDISC_withInputs, acceptData_withInputs, duplicateData_withInputs,
    mismatchData_withInputs, acceptEcho_withInputs]

theorem rxByte_withInputs (b : Octet) : rxByte b (withInputs l s) = mapNext (withInputs l) (rxByte b s) := by
  by_cases hp : s.phase = .none
  · rw [rxByte_held s b hp, rxByte_held (withInputs l s) b hp]; rfl
  · rw [rxByte_read s b hp, rxByte_read (withInputs l s) b hp, ← onOutcome_withInputs]; rfl

theorem deliver_withInputs (bs : Octets) :
    deliver bs (withInputs l s) = mapNext (withInputs l) (deliver bs s) := by
  induction bs generalizing s with
  | nil => rfl
  | cons b bs ih =>
    rw [deliver_cons, deliver_cons, rxByte_withInputs]
    cases rxByte b s with
    | next t => exact ih t
    | fault e => rfl
    | refused e => rfl

end

end Sys2Proof.Machine
end

