-- ==== Sys2Proof/Laws/PerInstr.lean ====
section
/-! SUPPORT. A statement about every instruction, one lemma per constructor: the shape of its word. -/

namespace Sys2Proof.Laws.FrameShape

/-- A frame begins and ends with `FLAG` and has at least five octets (30_encoding.md R80, R81, R82); a command's
code is at most 4 (R97). -/
def Statement (i : Instr) : Prop :=
  ∀ p : Params,
    match encode p i with
    | .wire bs => 5 ≤ bs.length ∧ bs.head? = some Config.FLAG ∧ bs.getLast? = some Config.FLAG
    | .command code _ => code.toNat ≤ 4

theorem ctrl_shape (a c : Octet) :
    5 ≤ (ctrl a c).length ∧ (ctrl a c).head? = some Config.FLAG ∧ (ctrl a c).getLast? = some Config.FLAG :=
  ⟨Nat.le_refl 5, rfl, rfl⟩

theorem infoFrame_shape (a c : Octet) (payload : Octets) :
    5 ≤ (infoFrame a c payload).length ∧ (infoFrame a c payload).head? = some Config.FLAG ∧
      (infoFrame a c payload).getLast? = some Config.FLAG := by
  refine ⟨?_, rfl, ?_⟩
  · simp [infoFrame]
  · rw [infoFrame, List.getLast?_append]; rfl

theorem set (a : Octet) : Statement (.set a) := fun _ => ctrl_shape _ _
theorem ua (a : Octet) : Statement (.ua a) := fun _ => ctrl_shape _ _
theorem disc (a : Octet) : Statement (.disc a) := fun _ => ctrl_shape _ _
theorem rr0 (a : Octet) : Statement (.rr0 a) := fun _ => ctrl_shape _ _
theorem rr1 (a : Octet) : Statement (.rr1 a) := fun _ => ctrl_shape _ _
theorem rej0 (a : Octet) : Statement (.rej0 a) := fun _ => ctrl_shape _ _
theorem rej1 (a : Octet) : Statement (.rej1 a) := fun _ => ctrl_shape _ _
theorem i0 (a : Octet) (payload : Octets) : Statement (.i0 a payload) := fun _ => infoFrame_shape _ _ _
theorem i1 (a : Octet) (payload : Octets) : Statement (.i1 a payload) := fun _ => infoFrame_shape _ _ _
theorem open_ (role : Role) (port : Octets) (speed n t : Nat) : Statement (.open_ role port speed n t) :=
  fun _ => Nat.zero_le 4
theorem send (payload : Octets) : Statement (.send payload) := fun _ => Nat.le_of_ble_eq_true rfl
theorem receive : Statement .receive := fun _ => Nat.le_of_ble_eq_true rfl
theorem close (report : Bool) : Statement (.close report) := fun _ => Nat.le_of_ble_eq_true rfl
theorem statistics : Statement .statistics := fun _ => Nat.le_of_ble_eq_true rfl

end Sys2Proof.Laws.FrameShape
end

