-- ==== Sys2Proof/Tests/Slice0.lean ====
section
/-! SUPPORT. The model's own tests: the smoke test of well-formedness, words decoded, small steps with results from
spec/95_test_vectors.md, and for every obligation with hypotheses a state and operands that meet them together. -/

namespace Sys2Proof.Machine.Tests

abbrev P : Params := Params.default

/-- Two octets, and payloads at and over the boundary of `MAX_PAYLOAD` (8 in the default parameters). -/
abbrev two : Octets := [0x01, 0x02]
abbrev eight : Octets := List.replicate 8 0x7E
abbrev nine : Octets := List.replicate 9 0x7E

theorem default_wf : P.wf :=
  ⟨by decide, by decide, by decide, by decide, by
    simp [Params.pairs, Params.default, Config.A_TX, Config.C_SET, Config.C_UA, Config.C_I0, Config.FLAG]⟩

/-! ## Well-formedness: a term that each check refuses, and the boundary that it takes -/

theorem test_wf_set_address : (Instr.set 0x01).wf P = false ∧ (Instr.set 0x03).wf P = true := by decide
theorem test_wf_ua_address : (Instr.ua 0x02).wf P = false ∧ (Instr.ua 0x01).wf P = true := by decide
theorem test_wf_disc_address : (Instr.disc 0x00).wf P = false ∧ (Instr.disc 0x01).wf P = true := by decide
theorem test_wf_rr_address : (Instr.rr0 0x01).wf P = false ∧ (Instr.rr1 0x01).wf P = false := by decide
theorem test_wf_rej_address : (Instr.rej0 0x01).wf P = false ∧ (Instr.rej1 0x01).wf P = false := by decide
theorem test_wf_info_address : (Instr.i0 0x01 two).wf P = false ∧ (Instr.i1 0x01 two).wf P = false := by decide
theorem test_wf_info_length :
    (Instr.i0 0x03 nine).wf P = false ∧ (Instr.i1 0x03 nine).wf P = false ∧ (Instr.i0 0x03 eight).wf P = true := by
  decide

/-! ## Decoding: a word per constructor, written out from 30_encoding.md R81, R82, R88, R97 (defaults of R7) -/

theorem test_decode_set : decode P (.wire [0x7E, 0x03, 0x03, 0x00, 0x7E]) = .ok (.set 0x03) := by decide
theorem test_decode_ua : decode P (.wire [0x7E, 0x03, 0x07, 0x04, 0x7E]) = .ok (.ua 0x03) := by decide
theorem test_decode_disc : decode P (.wire [0x7E, 0x01, 0x0B, 0x0A, 0x7E]) = .ok (.disc 0x01) := by decide
theorem test_decode_rr0 : decode P (.wire [0x7E, 0x03, 0x05, 0x06, 0x7E]) = .ok (.rr0 0x03) := by decide
theorem test_decode_rr1 : decode P (.wire [0x7E, 0x03, 0x85, 0x86, 0x7E]) = .ok (.rr1 0x03) := by decide
theorem test_decode_rej0 : decode P (.wire [0x7E, 0x03, 0x01, 0x02, 0x7E]) = .ok (.rej0 0x03) := by decide
theorem test_decode_rej1 : decode P (.wire [0x7E, 0x03, 0x81, 0x82, 0x7E]) = .ok (.rej1 0x03) := by decide
theorem test_decode_i0 :
    decode P (.wire [0x7E, 0x03, 0x00, 0x03, 0x01, 0x02, 0x03, 0x7E]) = .ok (.i0 0x03 two) := by decide
theorem test_decode_i1 :
    decode P (.wire [0x7E, 0x03, 0x40, 0x43, 0x7D, 0x5E, 0x7D, 0x5E, 0x7E]) = .ok (.i1 0x03 [0x7E]) := by decide
theorem test_decode_open : decode P (.command 0 [.num 1, .octets [0x2F], .num 9600, .num 3, .num 4]) =
    .ok (.open_ .responder [0x2F] 9600 3 4) := by decide
theorem test_decode_send : decode P (.command 1 [.octets two]) = .ok (.send two) := by decide
theorem test_decode_receive : decode P (.command 2 []) = .ok .receive := by decide
theorem test_decode_close : decode P (.command 3 [.num 1]) = .ok (.close true) := by decide
theorem test_decode_statistics : decode P (.command 4 []) = .ok .statistics := by decide

/-- Rejections by name: bad checksum1, no closing flag, unknown control, over-long, truncated escape, bad
checksum2, an escape no conforming transmitter sends (30_encoding.md R93, R94, R95). -/
theorem test_decode_rejects :
    decode P (.wire [0x7E, 0x03, 0x07, 0x05, 0x7E]) = .error .badHeaderChecksum ∧
    decode P (.wire [0x7E, 0x03, 0x07, 0x04, 0x7D]) = .error .noClosingFlag ∧
    decode P (.wire [0x7E, 0x03, 0x08, 0x0B, 0x7E]) = .error .unknownControl ∧
    decode P (.wire (infoFrame 0x03 0x00 nine)) = .error .illFormed ∧
    decode P (.wire [0x7E, 0x03, 0x00, 0x03, 0x7D, 0x7E]) = .error (.badRegion .truncatedEscape) ∧
    decode P (.wire [0x7E, 0x03, 0x00, 0x03, 0x01, 0x02, 0x02, 0x7E]) = .error .badChecksum2 ∧
    decode P (.wire [0x7E, 0x03, 0x00, 0x03, 0x7D, 0x41, 0x61, 0x7E]) = .error .nonCanonicalEscape := by decide

/-- The table gives a row one octet, or three bits: I1 by its control octet, OPEN by its command code. -/
theorem test_decode_table : decodeTableWord 8 0x40 = some (.i1 0x03 []) ∧
    decodeTableWord 3 0 = some (.open_ .initiator [] 0 0 0) ∧ decodeTableWord 8 0x03 = some (.set 0x03) := by decide

/-! ## Small states -/

/-- A connection with `MAX_RETX = 3` and `TIMEOUT_S = 4`, no command in progress. -/
def connected (role : Role) (answers : List Answer) : State :=
  { State.reset with role := role, maxRetx := 3, timeoutS := 4, session := .open_,
                     env := { Env.quiet with answers := answers } }

def closed (answers : List Answer) : State := { State.reset with env := { Env.quiet with answers := answers } }

/-- A timed wait with the frame `f` in `TXBUF` and `retry` recoveries behind it. -/
def timedWait (phase : Phase) (session : Session) (f : Octets) (retry : Nat) (answers : List Answer) : State :=
  { connected .initiator answers with
    phase := phase, session := session, txbuf := f, txlen := f.length, retry := retry, timerArmed := true }

def awaitUA (retry : Nat) (answers : List Answer) : State :=
  timedWait .awaitUA .connecting [0x7E, 0x03, 0x03, 0x00, 0x7E] retry answers

def awaitAck (retry : Nat) (answers : List Answer) : State :=
  { timedWait .awaitAck .open_ [0x7E, 0x03, 0x00, 0x03, 0x01, 0x02, 0x03, 0x7E] retry answers with txPlen := 2 }

/-- The same wait with `SEQ = 1`. -/
def awaitAck1 (answers : List Answer) : State :=
  { timedWait .awaitAck .open_ [0x7E, 0x03, 0x40, 0x43, 0x01, 0x02, 0x03, 0x7E] 0 answers with
    txPlen := 2, seq := true }

def awaitDISC (retry : Nat) (answers : List Answer) : State :=
  timedWait .awaitDISC .closing [0x7E, 0x03, 0x0B, 0x08, 0x7E] retry answers

def awaitSET (answers : List Answer) : State :=
  { connected .responder answers with phase := .awaitSET, session := .connecting }

def awaitData (seq : Bool) (answers : List Answer) : State :=
  { connected .responder answers with phase := .awaitData, seq := seq }

theorem reset_rx : State.reset.rx = State.reset.rx.init := by decide
theorem fits_params : P.buffersFit := by decide
theorem fits_five : 5 ≤ P.txCap := by decide
theorem fits_eight : 8 ≤ P.txCap := by decide
theorem builds_i0 : buildDataFrame P two false 0x03 = .ok [0x7E, 0x03, 0x00, 0x03, 0x01, 0x02, 0x03, 0x7E] := by
  decide
theorem builds_i1 : buildDataFrame P two true 0x03 = .ok [0x7E, 0x03, 0x40, 0x43, 0x01, 0x02, 0x03, 0x7E] := by
  decide

theorem builds_disc : ctrl 0x03 P.cDISC = [0x7E, 0x03, 0x0B, 0x08, 0x7E] := by decide

theorem connected_inv (role : Role) (answers : List Answer) : Inv (connected role answers) :=
  Inv.of_ended ⟨fits_params, Nat.zero_le _, Nat.zero_le _, ⟨Nat.zero_le _, Nat.zero_le _⟩, nofun⟩ rfl
    (.inr (.inl rfl)) rfl reset_rx

theorem closed_inv (answers : List Answer) : Inv (closed answers) :=
  Inv.of_ended ⟨fits_params, Nat.zero_le _, Nat.zero_le _, ⟨Nat.zero_le _, Nat.zero_le _⟩, nofun⟩ rfl (.inl rfl)
    rfl reset_rx

theorem awaitUA_inv {retry : Nat} (h : retry < 3) (answers : List Answer) : Inv (awaitUA retry answers) :=
  Inv.of_init ⟨fits_params, Nat.le_of_lt h, Nat.zero_le _, ⟨Nat.le_refl 5, fits_five⟩, nofun⟩ rfl rfl rfl nofun
    (fun _ => h) rfl reset_rx

theorem awaitAck_inv {retry : Nat} (h : retry < 3) (answers : List Answer) : Inv (awaitAck retry answers) :=
  Inv.of_init ⟨fits_params, Nat.le_of_lt h, Nat.zero_le _, ⟨Nat.le_refl 8, fits_eight⟩, nofun⟩ rfl rfl rfl nofun
    (fun _ => h) ⟨two, builds_i0, rfl⟩ reset_rx

theorem awaitAck1_inv (answers : List Answer) : Inv (awaitAck1 answers) :=
  Inv.of_init ⟨fits_params, Nat.zero_le _, Nat.zero_le _, ⟨Nat.le_refl 8, fits_eight⟩, nofun⟩ rfl rfl rfl nofun
    (fun _ => Nat.zero_lt_succ 2) ⟨two, builds_i1, rfl⟩ reset_rx

theorem awaitDISC_inv {retry : Nat} (h : retry < 3) (answers : List Answer) : Inv (awaitDISC retry answers) :=
  Inv.of_init ⟨fits_params, Nat.le_of_lt h, Nat.zero_le _, ⟨Nat.le_refl 5, fits_five⟩, nofun⟩ rfl rfl rfl nofun
    (fun _ => h) builds_disc.symm reset_rx

theorem awaitSET_inv (answers : List Answer) : Inv (awaitSET answers) :=
  Inv.of_init ⟨fits_params, Nat.zero_le _, Nat.zero_le _, ⟨Nat.zero_le _, Nat.zero_le _⟩, nofun⟩ rfl rfl rfl nofun
    nofun trivial reset_rx

theorem awaitData_inv (seq : Bool) (answers : List Answer) : Inv (awaitData seq answers) :=
  Inv.of_init ⟨fits_params, Nat.zero_le _, Nat.zero_le _, ⟨Nat.zero_le _, Nat.zero_le _⟩, nofun⟩ rfl rfl rfl nofun
    nofun trivial reset_rx

/-- What a step's next state shows. -/
def seen {α : Type} (f : State → α) (o : Step) : Option α :=
  match o with
  | .next t => some (f t)
  | _ => none

/-! ## Codec and receiver (95_test_vectors.md parts 1 and 2) -/

theorem test_stuff : stuff [0x7D, 0x7E, 0x03] = [0x7D, 0x5D, 0x7D, 0x5E, 0x03] := by decide
theorem test_destuff : destuff [0x7D, 0x5E] = .ok [0x7E] ∧ destuff [0x01, 0x7D] = .error .truncatedEscape ∧
    destuff [0x7D, 0x7D] = .ok [0x5D] := by decide
theorem test_destuffPayload :
    destuffPayload [0x7D, 0x5D, 0x7D, 0x5E, 0x03] = .ok ([0x7D, 0x7E], 0x03) ∧
    destuffPayload [0x00] = .ok ([], 0x00) ∧ destuffPayload [] = .error .malformedFrame := by decide
theorem test_buildDataFrame_longest :
    buildDataFrame P [0x7E, 0x7E, 0x7E] false 0x03 = .ok [0x7E, 0x03, 0x00, 0x03, 0x7D, 0x5E, 0x7D, 0x5E, 0x7D,
      0x5E, 0x7D, 0x5E, 0x7E] := by decide
theorem test_isControlFrame : isControlFrame [0x7E, 0x03, 0x07, 0x04, 0x7E] 0x03 0x07 = true ∧
    isControlFrame [0x7E, 0x03, 0x07, 0x05, 0x7E] 0x03 0x07 = false := by decide

/-- 41_ctrl_receiver.md R155: the reject is reported at the control octet. -/
theorem test_receiver_reject :
    (rxRun P .awaitAck false [0x7E, 0x03, 0x01] State.reset.rx).1 = [.needMore, .needMore, .rejected] := by decide

/-- 42_data_receiver.md R176: an octet after an escape is data, also a flag. -/
theorem test_receiver_escaped_flag :
    (rxRun P .awaitData false [0x7E, 0x03, 0x00, 0x03, 0x7D, 0x7E] State.reset.rx).2.value = [0x5E] := by decide

/-! ## One step per instruction (95_test_vectors.md part 6, and the examples in the rules of 43_arq_controller.md) -/

theorem test_set : seen (fun t => (t.session, t.env.actions)) (exec (.set 0x03) (awaitSET [.ok])) =
    some (.open_, [.chanWrite [0x7E, 0x03, 0x07, 0x04, 0x7E] .ok, .result (.ok .connection)]) := by decide

theorem test_ua : seen (fun t => (t.session, t.timerArmed, t.env.actions)) (exec (.ua 0x03) (awaitUA 1 [])) =
    some (.open_, false, [.timerCancel, .result (.ok .connection)]) := by decide

theorem test_ua_other_address : seen (fun t => (t.phase, t.rx.state, t.env.actions))
    (exec (.ua 0x01) (awaitUA 1 [])) = some (.awaitUA, .flag, []) := by decide

theorem test_disc_in_receive : seen (fun t => (t.session, t.env.actions))
    (exec (.disc 0x03) (awaitData false [.ok])) =
      some (.closing, [.chanWrite [0x7E, 0x01, 0x0B, 0x0A, 0x7E] .ok, .result (.err .disconnected)]) := by decide

theorem test_disc_echo : seen (fun t => (t.session, t.env.actions))
    (exec (.disc 0x01) (awaitDISC 0 [.ok, .error])) =
      some (.closed, [.timerCancel, .chanWrite [0x7E, 0x01, 0x07, 0x06, 0x7E] .ok, .chanClose .error,
        .result (.ok .unit)]) := by decide

theorem test_rr1 : seen (fun t => (t.seq, t.env.actions)) (exec (.rr1 0x03) (awaitAck 0 [])) =
    some (true, [.timerCancel, .result (.ok (.bytesSent 2))]) := by decide

theorem test_rr0_is_noise : seen (fun t => (t.seq, t.phase)) (exec (.rr0 0x03) (awaitAck 0 [])) =
    some (false, .awaitAck) := by decide

theorem test_rr0 : seen (fun t => (t.seq, t.env.actions)) (exec (.rr0 0x03) (awaitAck1 [])) =
    some (false, [.timerCancel, .result (.ok (.bytesSent 2))]) := by decide

theorem test_rej0 : seen (fun t => (t.retry, t.stats, t.env.actions)) (exec (.rej0 0x03) (awaitAck 0 [.ok])) =
    some (1, { framesSent := 1, retransmissions := 1, timeouts := 0, errors := 1 },
      [.timerCancel, .chanWrite [0x7E, 0x03, 0x00, 0x03, 0x01, 0x02, 0x03, 0x7E] .ok, .timerArm 4]) := by decide

theorem test_rej0_spent : seen (fun t => (t.failed, t.session, t.env.actions, t.env.held))
    (exec (.rej0 0x03) (awaitAck 2 [])) =
      some (true, .open_, [.timerCancel, .result (.err .maxRetransmissionsExceeded)], [0x02, 0x7E]) := by decide

theorem test_rej1 : seen (fun t => (t.retry, t.env.actions)) (exec (.rej1 0x03) (awaitAck1 [.ok])) =
    some (1, [.timerCancel, .chanWrite [0x7E, 0x03, 0x40, 0x43, 0x01, 0x02, 0x03, 0x7E] .ok, .timerArm 4]) := by
  decide

theorem test_i0 : seen (fun t => (t.seq, t.env.actions)) (exec (.i0 0x03 two) (awaitData false [.ok])) =
    some (true, [.chanWrite [0x7E, 0x03, 0x85, 0x86, 0x7E] .ok, .result (.ok (.payload two))]) := by decide

theorem test_i0_duplicate : seen (fun t => (t.seq, t.phase, t.env.actions))
    (exec (.i0 0x03 two) (awaitData true [.ok])) =
      some (true, .awaitData, [.chanWrite [0x7E, 0x03, 0x85, 0x86, 0x7E] .ok]) := by decide

theorem test_i1 : seen (fun t => (t.seq, t.env.actions)) (exec (.i1 0x03 [0x7E]) (awaitData true [.ok])) =
    some (false, [.chanWrite [0x7E, 0x03, 0x05, 0x06, 0x7E] .ok, .result (.ok (.payload [0x7E]))]) := by decide

/-- 43_arq_controller.md R219, its example: a damaged I0 is answered with REJ0. -/
theorem test_damaged_i0 : seen (fun t => (t.stats.errors, t.env.actions))
    (deliver [0x7E, 0x03, 0x00, 0x03, 0x01, 0x02, 0x02, 0x7E] (awaitData false [.ok])) =
      some (1, [.chanWrite [0x7E, 0x03, 0x01, 0x02, 0x7E] .ok]) := by decide

theorem test_open : seen (fun t => (t.session, t.phase, t.txFrame, t.env.actions))
    (exec (.open_ .initiator [] 0 3 4) (closed [.ok, .ok])) =
      some (.connecting, .awaitUA, [0x7E, 0x03, 0x03, 0x00, 0x7E],
        [.chanOpen [] 0 .ok, .chanWrite [0x7E, 0x03, 0x03, 0x00, 0x7E] .ok, .timerArm 4]) := by decide

theorem test_open_while_open : seen (fun t => (t.role, t.env.actions))
    (exec (.open_ .responder [] 0 3 4) (connected .initiator [])) =
      some (.initiator, [.result (.err .invalidOperation)]) := by decide

theorem test_send : seen (fun t => (t.txPlen, t.env.actions)) (exec (.send two) (connected .initiator [.ok])) =
    some (2, [.chanWrite [0x7E, 0x03, 0x00, 0x03, 0x01, 0x02, 0x03, 0x7E] .ok, .timerArm 4]) := by decide

theorem test_send_too_large : seen (fun t => (t.phase, t.env.actions))
    (exec (.send nine) (connected .initiator [])) = some (.none, [.result (.err .payloadTooLarge)]) := by decide

theorem test_receive : seen (fun t => (t.phase, t.timerArmed, t.env.actions))
    (exec .receive (connected .responder [])) = some (.awaitData, false, []) := by decide

theorem test_close : seen (fun t => (t.session, t.env.actions)) (exec (.close true) (connected .initiator [.ok])) =
    some (.closing, [.chanWrite [0x7E, 0x03, 0x0B, 0x08, 0x7E] .ok, .timerArm 4]) := by decide

theorem test_close_responder : seen (fun t => (t.session, t.stats.errors, t.env.actions))
    (exec (.close false) (connected .responder [.error])) =
      some (.closed, 1, [.chanClose .error, .result (.err .channelError)]) := by decide

theorem test_statistics : seen (fun t => t.env.actions)
    (exec .statistics { closed [] with stats := { framesSent := 1, retransmissions := 2, timeouts := 3, errors := 4 } }) =
      some [.result (.ok (.snapshot { framesSent := 1, retransmissions := 2, timeouts := 3, errors := 4 }))] := by
  decide

/-- 95_test_vectors.md P4: the third expiry of three allowed ends OPEN, with no further frame. -/
theorem test_expiry_spent : seen (fun t => (t.session, t.retry, t.env.actions)) (timerExpiry (awaitUA 2 [.ok])) =
    some (.closed, 3, [.chanClose .ok, .result (.err .peerUnreachable)]) := by decide

/-- A table word runs as the first instruction after reset: STATISTICS completes, a frame stays with the
environment. -/
theorem test_fetch : seen (fun t => t.env.actions) (step (State.reset.withFetchWord 3 4)) =
      some [.result (.ok (.snapshot { framesSent := 0, retransmissions := 0, timeouts := 0, errors := 0 }))] ∧
    seen (fun t => t.env.held) (step (State.reset.withFetchWord 8 0x07)) =
      some [0x7E, 0x03, 0x07, 0x04, 0x7E] := by decide

/-! ## The hypotheses of the obligations are met: one witness for each clause, at a boundary where it has one -/

theorem witness_StuffOctetForms :
    (∃ b : Octet, b = Config.FLAG) ∧ (∃ b : Octet, b = Config.ESC) ∧ ∃ b : Octet, b ≠ Config.FLAG ∧ b ≠ Config.ESC :=
  ⟨⟨_, rfl⟩, ⟨_, rfl⟩, 0x5E, by decide, by decide⟩

theorem witness_StuffedRegionShape : ∃ s u v : Octets, stuff s = u ++ Config.ESC :: v :=
  ⟨[0x01, 0x7D], [0x01], [0x5D], by decide⟩

theorem witness_DestuffInvertsStuff : ∃ s : Octets, s ≠ [] ∧ Config.FLAG ∉ s ∧ Config.ESC ∉ s :=
  ⟨[0x5E], by decide, by decide, by decide⟩

theorem witness_DestuffEscapes : ∃ r d : Octets, r ≠ d ∧ destuff r = .ok d := ⟨[0x7D, 0x7E], [0x5E], by decide, by decide⟩

/-- The changed octet is the checksum itself, the last one. -/
theorem witness_ChecksumDetectsOneOctet :
    ∃ (s u v : Octets) (b m : Octet), s ++ [bcc s] = u ++ b :: v ∧ m ≠ 0 :=
  ⟨two, two, [], 0x03, 0x01, by decide, by decide⟩

theorem witness_BuildDataFrameLengths :
    (∃ payload : Octets, P.maxPayload < payload.length) ∧
    (∃ payload : Octets, payload.length ≤ P.maxPayload ∧ payload.length % 2 = 0 ∧ payload.length = 8) ∧
    (∃ payload : Octets, payload.length ≤ P.maxPayload ∧ payload.length = 0) ∧
    (∃ n, n ≤ P.maxPayload ∧ n % 2 = 1) ∧ ∃ n, n ≤ P.maxPayload ∧ n % 2 = 0 :=
  ⟨⟨nine, by decide⟩, ⟨eight, by decide⟩, ⟨[], by decide⟩, ⟨7, by decide⟩, ⟨8, by decide⟩⟩

theorem witness_BuiltRegionParses : ∃ (payload f : Octets) (s : Bool) (a : Octet),
    buildDataFrame P payload s a = .ok f := ⟨two, _, false, 0x03, builds_i0⟩

theorem witness_DecodeOfEncode : ∃ (p : Params) (i : Instr), p.wf ∧ i.wf p = true :=
  ⟨P, .i1 0x03 eight, default_wf, by decide⟩

theorem witness_EncodeOfDecode : ∃ (w : Words) (i : Instr), decode P w = .ok i := ⟨_, _, test_decode_i1⟩

/-- A receiver in the state `st` with the header of I0 (or of a DISC, for kind `ctrl`) latched and `n` cells. -/
def receiver (st : RxState) (kind : FrameKind) (esc : Bool) (n : Nat) : Receiver :=
  { state := st, a := 0x03, c := if kind = .info then 0x00 else 0x0B, kind := kind, dup := false, escPend := esc,
    acc := List.replicate n 0x01, len := n }

theorem witness_HeaderStateTransitions :
    (∃ r : Receiver, r.state = .idle ∧ ∃ b : Octet, b ≠ Config.FLAG) ∧
    (∃ r : Receiver, r.state = .flag ∧ ∃ b : Octet, b = expA P .awaitUA) ∧
    (∃ r : Receiver, r.state = .flag ∧ ∃ b : Octet, b ≠ expA P .awaitUA ∧ b = Config.FLAG) ∧
    (∃ r : Receiver, r.state = .flag ∧ ∃ b : Octet, b ≠ expA P .awaitUA ∧ b ≠ Config.FLAG) ∧
    (∃ (r : Receiver) (b : Octet), r.state = .addr ∧ accept P .awaitData true b = some (.info, true)) ∧
    (∃ (r : Receiver) (b : Octet), r.state = .addr ∧ accept P .awaitAck false b = none ∧
      rejects P .awaitAck false b = true) ∧
    (∃ (r : Receiver) (b : Octet), r.state = .addr ∧ accept P .awaitAck false b = none ∧
      rejects P .awaitAck false b = false ∧ b = Config.FLAG) ∧
    (∃ (r : Receiver) (b : Octet), r.state = .addr ∧ accept P .awaitAck false b = none ∧
      rejects P .awaitAck false b = false ∧ b ≠ Config.FLAG) ∧
    (∃ r : Receiver, r.state = .ctrl ∧ r.kind = .info ∧ ∃ b : Octet, b = r.a ^^^ r.c) ∧
    (∃ r : Receiver, r.state = .ctrl ∧ r.kind = .ctrl ∧ ∃ b : Octet, b = r.a ^^^ r.c) ∧
    (∃ r : Receiver, r.state = .ctrl ∧ ∃ b : Octet, b ≠ r.a ^^^ r.c ∧ b = Config.FLAG) ∧
    (∃ r : Receiver, r.state = .ctrl ∧ ∃ b : Octet, b ≠ r.a ^^^ r.c ∧ b ≠ Config.FLAG) ∧
    (∃ r : Receiver, r.state = .bcc1 ∧ ∃ b : Octet, b ≠ Config.FLAG) :=
  ⟨⟨receiver .idle .ctrl false 0, rfl, 0x55, by decide⟩, ⟨receiver .flag .ctrl false 0, rfl, 0x03, by decide⟩,
    ⟨receiver .flag .ctrl false 0, rfl, 0x7E, by decide⟩, ⟨receiver .flag .ctrl false 0, rfl, 0x01, by decide⟩,
    ⟨receiver .addr .ctrl false 0, 0x00, by decide⟩, ⟨receiver .addr .ctrl false 0, 0x01, by decide⟩,
    ⟨receiver .addr .ctrl false 0, 0x7E, by decide⟩, ⟨receiver .addr .ctrl false 0, 0x81, by decide⟩,
    ⟨receiver .ctrl .info false 0, rfl, rfl, 0x03, by decide⟩, ⟨receiver .ctrl .ctrl false 0, rfl, rfl, 0x08, by decide⟩,
    ⟨receiver .ctrl .ctrl false 0, rfl, 0x7E, by decide⟩, ⟨receiver .ctrl .ctrl false 0, rfl, 0x05, by decide⟩,
    ⟨receiver .bcc1 .ctrl false 0, rfl, 0x55, by decide⟩⟩

theorem witness_EscapePendsOnlyOnUnescapedEsc :
    (∃ (r : Receiver) (b : Octet), (r.escPend = true → r.state = .payload) ∧ r.state = .payload ∧
      r.escPend = false ∧ b = Config.ESC) ∧
    ∃ r : Receiver, r.escPend = true ∧ (r.escPend = true → r.state = .payload) :=
  ⟨⟨receiver .payload .info false 0, _, nofun, rfl, rfl, rfl⟩, receiver .payload .info true 0, rfl, fun _ => rfl⟩

/-- One cell free, no cell free, nothing accumulated, all cells taken. -/
theorem witness_PayloadStateTransitions :
    (∃ r : Receiver, r.state = .payload ∧ r.len ≤ r.acc.length ∧ r.len < P.accCap ∧ r.escPend = true ∧ r.len = 8) ∧
    (∃ r : Receiver, r.state = .payload ∧ r.len ≤ r.acc.length ∧ r.len = P.accCap ∧ r.escPend = true) ∧
    (∃ r : Receiver, r.state = .payload ∧ r.len ≤ r.acc.length ∧ r.escPend = false ∧ r.len = 0) ∧
    (∃ r : Receiver, r.state = .payload ∧ r.len ≤ r.acc.length ∧ r.escPend = false ∧ r.len = 8 + 1) ∧
    ∃ b : Octet, b ≠ Config.ESC ∧ b ≠ Config.FLAG :=
  ⟨⟨receiver .payload .info true 8, by decide⟩, ⟨receiver .payload .info true 9, by decide⟩,
    ⟨receiver .payload .info false 0, by decide⟩, ⟨receiver .payload .info false 9, by decide⟩, 0x41, by decide⟩

/-- The noise is a truncated frame: it ends in the middle of a header. -/
theorem witness_ControlFrameAcceptedAfterNoise :
    ∃ (phase : Phase) (noise : Octets) (c : Octet) (r : Receiver),
      P.wf ∧ phase ≠ .none ∧ phase ≠ .awaitData ∧ r.state = .idle ∧ accept P phase false c = some (.ctrl, false) ∧
      RxOutcome.accepted ∉ (rxRun P phase false noise r).1 ∧ RxOutcome.rejected ∉ (rxRun P phase false noise r).1 ∧
      (rxRun P phase false noise r).2.state = .ctrl ∧ (rxRun P phase false noise r).2.state ≠ .bcc1 :=
  ⟨.awaitUA, [0x55, 0x7E, 0x03, 0x07], 0x07, State.reset.rx, default_wf, by decide⟩

theorem witness_AcceptedOnlyForWholeFrame :
    (∃ (bs : Octets) (r : Receiver), r.state = .idle ∧ (rxRun P .awaitUA false bs r).1.getLast? = some .accepted) ∧
    ∃ (bs : Octets) (r : Receiver), r.state = .idle ∧ (rxRun P .awaitAck false bs r).1.getLast? = some .rejected :=
  ⟨⟨[0x7E, 0x7E, 0x03, 0x07, 0x04, 0x7E], State.reset.rx, by decide⟩, [0x7E, 0x7E, 0x03, 0x01], State.reset.rx, by decide⟩

theorem witness_InfoFrameReported :
    ∃ (payload : Octets) (r : Receiver), P.wf ∧ payload.length ≤ P.maxPayload ∧ payload.length = 8 ∧ r.state = .idle :=
  ⟨eight, State.reset.rx, default_wf, by decide⟩

theorem witness_AccumulatorIsDestuffedRegion :
    (∃ (region : Octets) (r : Receiver), r.state = .payload ∧ r.len = 0 ∧ r.escPend = false ∧
      (∀ o ∈ (rxRun P .awaitData false region r).1, o = .needMore) ∧
      (rxRun P .awaitData false region r).2.escPend = false) ∧
    ∃ (region : Octets) (r : Receiver), r.state = .payload ∧ r.len = 0 ∧ r.escPend = false ∧
      (∀ o ∈ (rxRun P .awaitData false region r).1, o = .needMore) ∧
      (rxRun P .awaitData false region r).2.escPend = true :=
  ⟨⟨[0x01, 0x7D, 0x7E], receiver .payload .info false 0, by decide⟩,
    [0x01, 0x7D], receiver .payload .info false 0, by decide⟩

theorem witness_CommandWhileBusyHasNoStep : ∃ (i : Instr) (s : State), isCommand i = true ∧ s.phase ≠ .none :=
  ⟨.statistics, awaitUA 0 [], rfl, by decide⟩

theorem witness_IllegalCommandAnswered :
    (∃ s : State, s.phase = .none ∧ s.session ≠ .closed) ∧
    (∃ s : State, s.phase = .none ∧ s.session = .open_ ∧ s.role = .initiator ∧ s.failed = true) ∧
    (∃ s : State, s.phase = .none ∧ s.session = .open_ ∧ s.role ≠ .responder) ∧
    ∃ s : State, s.phase = .none ∧ s.session ≠ .open_ ∧ ¬(s.session = .closing ∧ s.role = .responder) :=
  ⟨⟨connected .initiator [], by decide⟩, ⟨{ connected .initiator [] with failed := true }, by decide⟩,
    ⟨connected .initiator [], by decide⟩, closed [], by decide⟩

theorem witness_OpenInitiatorSendsSet : ∃ s : State,
    s.phase = .none ∧ s.session = .closed ∧ s.nthAnswer 0 = .ok ∧ s.nthAnswer 1 = .ok :=
  ⟨closed [.ok, .ok], by decide⟩

theorem witness_OpenResponderWaits : ∃ s : State, s.phase = .none ∧ s.session = .closed ∧ s.nthAnswer 0 = .ok :=
  ⟨closed [.ok], by decide⟩

theorem witness_OpenChannelErrors :
    (∃ s : State, Inv s ∧ s.phase = .none ∧ s.session = .closed ∧ s.nthAnswer 0 = .error) ∧
    ∃ s : State, Inv s ∧ s.phase = .none ∧ s.session = .closed ∧ s.nthAnswer 0 = .ok ∧ s.nthAnswer 1 = .error :=
  ⟨⟨closed [.error], closed_inv _, by decide⟩, closed [.ok, .error], closed_inv _, by decide⟩

theorem witness_SendWritesFrameAndWaits : ∃ (s : State) (payload : Octets),
    s.phase = .none ∧ s.session = .open_ ∧ s.role = .initiator ∧ s.failed = false ∧
    payload.length ≤ s.params.maxPayload ∧ payload.length = 8 ∧ s.answer = .ok :=
  ⟨connected .initiator [.ok], eight, by decide⟩

theorem witness_SendTooLargeAnswered : ∃ (s : State) (payload : Octets),
    s.phase = .none ∧ s.session = .open_ ∧ s.role = .initiator ∧ s.failed = false ∧
    s.params.maxPayload < payload.length ∧ payload.length = 9 :=
  ⟨connected .initiator [], nine, by decide⟩

theorem witness_RefusedWriteEndsCommand : ∃ (s : State) (payload : Octets), Inv s ∧
    s.phase = .none ∧ s.session = .open_ ∧ s.role = .initiator ∧ s.answer = .error ∧ s.failed = false ∧
    payload.length ≤ s.params.maxPayload :=
  ⟨connected .initiator [.error], eight, connected_inv _ _, by decide⟩

theorem witness_ReceiveStartsWait : ∃ s : State,
    s.phase = .none ∧ s.session = .open_ ∧ s.role = .responder ∧ s.failed = false :=
  ⟨connected .responder [], by decide⟩

theorem witness_CloseInitiatorSendsDisc : ∃ s : State,
    s.phase = .none ∧ s.session = .open_ ∧ s.role = .initiator ∧ s.answer = .ok ∧ s.failed = true :=
  ⟨{ connected .initiator [.ok] with failed := true }, by decide⟩

theorem witness_CloseResponderReleases :
    (∃ s : State, s.phase = .none ∧ s.role = .responder ∧ s.session = .open_ ∧ s.answer = .ok) ∧
    ∃ s : State, s.phase = .none ∧ s.role = .responder ∧ s.session = .closing ∧ s.answer = .error :=
  ⟨⟨connected .responder [.ok], by decide⟩, { connected .responder [.error] with session := .closing }, by decide⟩

theorem witness_StatisticsReturnsCounters : ∃ s : State, s.phase = .none := ⟨closed [], rfl⟩

theorem witness_UaCompletesOpen : ∃ s : State, Inv s ∧ s.params.wf ∧ s.phase = .awaitUA ∧ s.rx.state ≠ .bcc1 :=
  ⟨awaitUA 2 [], awaitUA_inv (by decide) _, default_wf, rfl, by decide⟩

theorem witness_SetAnsweredByUa :
    (∃ s : State, Inv s ∧ s.params.wf ∧ s.phase = .awaitSET ∧ s.rx.state ≠ .bcc1 ∧ s.answer = .ok) ∧
    ∃ s : State, Inv s ∧ s.params.wf ∧ s.phase = .awaitSET ∧ s.rx.state ≠ .bcc1 ∧ s.answer = .error :=
  ⟨⟨awaitSET [.ok], awaitSET_inv _, default_wf, rfl, by decide⟩,
    awaitSET [.error], awaitSET_inv _, default_wf, rfl, by decide⟩

theorem witness_RrCompletesSend :
    (∃ s : State, Inv s ∧ s.params.wf ∧ s.phase = .awaitAck ∧ s.rx.state ≠ .bcc1 ∧ s.seq = false) ∧
    ∃ s : State, Inv s ∧ s.params.wf ∧ s.phase = .awaitAck ∧ s.rx.state ≠ .bcc1 ∧ s.seq = true :=
  ⟨⟨awaitAck 2 [], awaitAck_inv (by decide) _, default_wf, rfl, by decide⟩,
    awaitAck1 [], awaitAck1_inv _, default_wf, rfl, by decide⟩

/-- Both sequence bits; and the last recovery that resends, the refused one, the one that spends the budget. -/
theorem witness_RejResendsOrFails :
    (∃ s : State, Inv s ∧ s.params.wf ∧ s.phase = .awaitAck ∧ s.rx.state ≠ .bcc1 ∧ s.seq = false ∧
      s.retry + 1 < s.maxRetx ∧ s.retry = 1 ∧ s.answer = .ok) ∧
    (∃ s : State, Inv s ∧ s.params.wf ∧ s.phase = .awaitAck ∧ s.rx.state ≠ .bcc1 ∧ s.seq = true ∧
      s.retry + 1 < s.maxRetx ∧ s.answer = .error) ∧
    ∃ s : State, Inv s ∧ s.params.wf ∧ s.phase = .awaitAck ∧ s.rx.state ≠ .bcc1 ∧ s.seq = false ∧
      s.maxRetx ≤ s.retry + 1 ∧ s.retry = 2 :=
  ⟨⟨awaitAck 1 [.ok], awaitAck_inv (by decide) _, default_wf, rfl, by decide⟩,
    ⟨awaitAck1 [.error], awaitAck1_inv _, default_wf, rfl, by decide⟩,
    awaitAck 2 [], awaitAck_inv (by decide) _, default_wf, rfl, by decide⟩

/-- The wait of a responder, for both answers; it serves the four statements about frames that arrive in it. -/
theorem witness_waitForData (seq : Bool) (answer : Answer) : ∃ s : State, Inv s ∧ s.params.wf ∧ s.phase = .awaitData ∧
    s.rx.state ≠ .bcc1 ∧ s.rx.state ≠ .payload ∧ s.rx.state = .idle ∧ s.seq = seq ∧ s.answer = answer ∧
    eight.length ≤ s.params.maxPayload :=
  ⟨awaitData seq [answer], awaitData_inv _ _, default_wf, rfl, nofun, nofun, rfl, rfl, rfl, Nat.le_refl 8⟩

theorem witness_DiscEndsReceive (answer : Answer) : ∃ s : State, Inv s ∧ s.params.wf ∧ s.phase = .awaitData ∧
    s.rx.state ≠ .bcc1 ∧ s.rx.state ≠ .payload ∧ s.answer = answer := by
  obtain ⟨s, h1, h2, h3, h4, h5, -, -, h6, -⟩ := witness_waitForData true answer
  exact ⟨s, h1, h2, h3, h4, h5, h6⟩

theorem witness_ExpectedInfoFrameDelivered (seq : Bool) (answer : Answer) : ∃ (s : State) (payload : Octets),
    Inv s ∧ s.params.wf ∧ s.phase = .awaitData ∧ s.rx.state ≠ .bcc1 ∧ s.rx.state ≠ .payload ∧
    payload.length ≤ s.params.maxPayload ∧ s.seq = seq ∧ s.answer = answer := by
  obtain ⟨s, h1, h2, h3, h4, h5, -, h6, h7, h8⟩ := witness_waitForData seq answer
  exact ⟨s, eight, h1, h2, h3, h4, h5, h8, h6, h7⟩

theorem witness_DuplicateInfoFrameAcknowledgedOnly (seq : Bool) (answer : Answer) : ∃ (s : State) (payload : Octets),
    Inv s ∧ s.params.wf ∧ s.phase = .awaitData ∧ s.rx.state ≠ .bcc1 ∧ s.rx.state ≠ .payload ∧
    payload.length ≤ s.params.maxPayload ∧ s.answer = answer ∧ s.seq = seq := by
  obtain ⟨s, h1, h2, h3, h4, h5, -, h6, h7, h8⟩ := witness_waitForData seq answer
  exact ⟨s, eight, h1, h2, h3, h4, h5, h8, h7, h6⟩

theorem witness_DamagedInfoFrameRejected (seq : Bool) (answer : Answer) :
    ∃ (s : State) (payload : Octets) (chk : Octet),
    Inv s ∧ s.params.wf ∧ s.phase = .awaitData ∧ s.rx.state ≠ .bcc1 ∧ s.rx.state ≠ .payload ∧
    payload.length ≤ s.params.maxPayload ∧ bcc payload ≠ chk ∧ s.answer = answer ∧ s.seq = seq := by
  obtain ⟨s, h1, h2, h3, h4, h5, -, h6, h7, h8⟩ := witness_waitForData seq answer
  exact ⟨s, eight, 0x7E, h1, h2, h3, h4, h5, h8, by decide, h7, h6⟩

theorem witness_DiscEchoCompletesClose :
    (∃ s : State, Inv s ∧ s.params.wf ∧ s.phase = .awaitDISC ∧ s.rx.state ≠ .bcc1 ∧ s.answer = .ok) ∧
    ∃ s : State, Inv s ∧ s.params.wf ∧ s.phase = .awaitDISC ∧ s.rx.state ≠ .bcc1 ∧ s.answer = .error :=
  ⟨⟨awaitDISC 2 [.ok], awaitDISC_inv (by decide) _, default_wf, rfl, by decide⟩,
    awaitDISC 0 [.error], awaitDISC_inv (by decide) _, default_wf, rfl, by decide⟩

/-- An octet of each quiet outcome in a timed wait; a final UA at a responder (the wrong address), and a repeated SET
in `AwaitData` (43_arq_controller.md R236). -/
theorem witness_UnacceptableFrameIsNoise :
    (∃ (s : State) (b : Octet), s.phase ≠ .none ∧ s.timerArmed = true ∧
      (rxStep s.params s.phase s.seq b s.rx).1 = .needMore) ∧
    (∃ (s : State) (b : Octet), s.phase ≠ .none ∧ s.timerArmed = true ∧
      (rxStep s.params s.phase s.seq b s.rx).1 = .resync) ∧
    (∃ (s : State) (i : Instr) (a c : Octet), Inv s ∧ s.params.wf ∧ s.phase ≠ .none ∧ s.rx.state ≠ .bcc1 ∧
      s.rx.state ≠ .payload ∧ i.wf s.params = true ∧ frameHeader s.params i = some (a, c) ∧
      a ≠ expA s.params s.phase) ∧
    ∃ (s : State) (i : Instr) (a c : Octet), Inv s ∧ s.params.wf ∧ s.phase ≠ .none ∧ s.rx.state ≠ .bcc1 ∧
      s.rx.state ≠ .payload ∧ i.wf s.params = true ∧ frameHeader s.params i = some (a, c) ∧
      accept s.params s.phase s.seq c = none ∧ rejects s.params s.phase s.seq c = false :=
  ⟨⟨awaitUA 0 [], 0x7E, by decide⟩,
    ⟨{ awaitUA 0 [] with rx := receiver .flag .ctrl false 0 }, 0x55, by decide⟩,
    ⟨awaitData false [], .ua 0x01, 0x01, 0x07, awaitData_inv _ _, default_wf, by decide⟩,
    awaitData false [], .set 0x03, 0x03, 0x03, awaitData_inv _ _, default_wf, by decide⟩

theorem witness_FrameBetweenCommandsIsHeld : ∃ (s : State) (i : Instr) (bs : Octets),
    s.phase = .none ∧ encode s.params i = .wire bs :=
  ⟨State.reset, .ua 0x03, [0x7E, 0x03, 0x07, 0x04, 0x7E], by decide⟩

/-- A state with one event before it. -/
def withEvent (e : Event) (s : State) : State := { s with env := { s.env with inputs := [e] } }

theorem withEvent_inv {s : State} (h : Inv s) (e : Event) : Inv (withEvent e s) := h.env _

/-- The resend that left, and the refused one in each timed wait. -/
theorem witness_ExpiryResendsFrame :
    (∃ (s : State) (rest : List Event), Inv s ∧ s.env.inputs = .timerExpiry :: rest ∧ s.timerArmed = true ∧
      s.retry + 1 < s.maxRetx ∧ s.retry = 1 ∧ s.answer = .ok) ∧
    (∃ (s : State) (rest : List Event), Inv s ∧ s.env.inputs = .timerExpiry :: rest ∧ s.timerArmed = true ∧
      s.retry + 1 < s.maxRetx ∧ s.answer = .error ∧ s.phase = .awaitUA) ∧
    (∃ (s : State) (rest : List Event), Inv s ∧ s.env.inputs = .timerExpiry :: rest ∧ s.timerArmed = true ∧
      s.retry + 1 < s.maxRetx ∧ s.answer = .error ∧ s.phase = .awaitAck) ∧
    ∃ (s : State) (rest : List Event), Inv s ∧ s.env.inputs = .timerExpiry :: rest ∧ s.timerArmed = true ∧
      s.retry + 1 < s.maxRetx ∧ s.answer = .error ∧ s.phase = .awaitDISC :=
  ⟨⟨withEvent .timerExpiry (awaitUA 1 [.ok]), [], withEvent_inv (awaitUA_inv (by decide) _) _, rfl, by decide⟩,
    ⟨withEvent .timerExpiry (awaitUA 1 [.error]), [], withEvent_inv (awaitUA_inv (by decide) _) _, rfl, by decide⟩,
    ⟨withEvent .timerExpiry (awaitAck 1 [.error]), [], withEvent_inv (awaitAck_inv (by decide) _) _, rfl, by decide⟩,
    withEvent .timerExpiry (awaitDISC 1 [.error]), [], withEvent_inv (awaitDISC_inv (by decide) _) _, rfl, by decide⟩

theorem witness_ExpirySpendsBudget :
    (∃ (s : State) (rest : List Event), Inv s ∧ s.env.inputs = .timerExpiry :: rest ∧ s.maxRetx ≤ s.retry + 1 ∧
      s.phase = .awaitUA) ∧
    (∃ (s : State) (rest : List Event), Inv s ∧ s.env.inputs = .timerExpiry :: rest ∧ s.maxRetx ≤ s.retry + 1 ∧
      s.phase = .awaitAck) ∧
    ∃ (s : State) (rest : List Event), Inv s ∧ s.env.inputs = .timerExpiry :: rest ∧ s.maxRetx ≤ s.retry + 1 ∧
      s.phase = .awaitDISC :=
  ⟨⟨withEvent .timerExpiry (awaitUA 2 []), [], withEvent_inv (awaitUA_inv (by decide) _) _, rfl, by decide⟩,
    ⟨withEvent .timerExpiry (awaitAck 2 []), [], withEvent_inv (awaitAck_inv (by decide) _) _, rfl, by decide⟩,
    withEvent .timerExpiry (awaitDISC 2 []), [], withEvent_inv (awaitDISC_inv (by decide) _) _, rfl, by decide⟩

theorem witness_StaleExpiryIgnored :
    ∃ (s : State) (rest : List Event), s.env.inputs = .timerExpiry :: rest ∧ s.timerArmed = false ∧ Inv s ∧
      s.phase = .awaitData :=
  ⟨withEvent .timerExpiry (awaitData false []), [], rfl, rfl, withEvent_inv (awaitData_inv _ _) _, rfl⟩

/-- A timed wait of an open session, and an untimed one of a session that is being opened. -/
theorem witness_ChannelErrorEndsWait :
    (∃ (s : State) (rest : List Event), Inv s ∧ s.env.inputs = .channelError :: rest ∧ s.phase ≠ .none ∧
      s.session = .open_ ∧ s.timerArmed = true) ∧
    ∃ (s : State) (rest : List Event), Inv s ∧ s.env.inputs = .channelError :: rest ∧ s.phase ≠ .none ∧
      s.session ≠ .open_ ∧ s.timerArmed = false :=
  ⟨⟨withEvent .channelError (awaitAck 0 []), [], withEvent_inv (awaitAck_inv (by decide) _) _, rfl, by decide⟩,
    withEvent .channelError (awaitSET []), [], withEvent_inv (awaitSET_inv _) _, rfl, by decide⟩

theorem witness_ResetEventGivesResetValues : ∃ (s : State) (rest : List Event),
    s.env.inputs = .reset :: rest ∧ s.phase = .awaitAck :=
  ⟨withEvent .reset (awaitAck 0 []), [], rfl, rfl⟩

theorem witness_StepRunsDecodedInstruction : ∃ (s : State) (w : Words) (rest : List Event) (i : Instr),
    s.env.inputs = .word w :: rest ∧ decode s.params w = .ok i ∧ s.phase = .awaitUA :=
  ⟨withEvent (.word (.wire [0x7E, 0x03, 0x07, 0x04, 0x7E])) (awaitUA 0 []), _, [], .ua 0x03, rfl, by decide⟩

theorem witness_StepOnOtherInputs :
    (∃ s : State, s.env.inputs = []) ∧
    (∃ (s : State) (bs : Octets) (e : Reject), s.env.inputs = [.word (.wire bs)] ∧
      decode s.params (.wire bs) = .error e) ∧
    (∃ (s : State) (code : BitVec 3) (ops : List Operand) (e : Reject), s.env.inputs = [.word (.command code ops)] ∧
      decode s.params (.command code ops) = .error e) ∧
    (∃ (s : State) (b : Octet), s.env.inputs = [.rxByte b] ∧ s.phase = .none) ∧
    (∃ (s : State) (b : Octet) (bs : Octets), s.env.inputs = [.heldDelivered] ∧ s.phase ≠ .none ∧ s.env.held = b :: bs) ∧
    ∃ (s : State) (b : Octet) (bs : Octets), s.env.inputs = [.heldLost] ∧ s.env.held = b :: bs :=
  ⟨⟨State.reset, rfl⟩, ⟨withEvent (.word (.wire [0x7E, 0x03])) State.reset, [0x7E, 0x03], .tooShort, rfl, by decide⟩,
    ⟨withEvent (.word (.command 5 [])) State.reset, 5, [], .unknownCommand, rfl, by decide⟩,
    ⟨withEvent (.rxByte 0x7E) State.reset, 0x7E, rfl, rfl⟩,
    ⟨withEvent .heldDelivered { awaitUA 0 [] with env := { Env.quiet with held := [0x7E] } }, 0x7E, [], rfl,
      by decide, rfl⟩,
    withEvent .heldLost { State.reset with env := { Env.quiet with held := [0x7E] } }, 0x7E, [], rfl, rfl⟩

theorem witness_InvariantAtReset : ∃ p : Params, p.buffersFit ∧ p.powerOn.txbuf.length = p.txCap :=
  ⟨{ P with powerOn := { P.powerOn with txbuf := List.replicate 23 0x00 } }, by decide, by decide⟩

/-- A step that moves the machine: an octet that completes OPEN. -/
theorem witness_StepKeepsInvariant : ∃ s t : State, Inv s ∧ step s = .next t ∧ t.session ≠ s.session := by
  refine ⟨withEvent (.word (.wire [0x7E, 0x03, 0x07, 0x04, 0x7E])) (awaitUA 0 []), _,
    withEvent_inv (awaitUA_inv (by decide) _) _, rfl, by decide⟩

theorem witness_StepNeverFaults :
    (∃ (s : State) (r : Refusal), Inv s ∧ step s = .refused r ∧ r = .commandWhileBusy) ∧
    ∃ (s : State) (r : Refusal), Inv s ∧ step s = .refused r ∧ r = .notACommand :=
  ⟨⟨withEvent (.word (.command 4 [])) (awaitUA 0 []), _, withEvent_inv (awaitUA_inv (by decide) _) _, rfl, rfl⟩,
    withEvent (.word (.command 7 [])) (closed []), _, withEvent_inv (closed_inv _) _, rfl, rfl⟩

theorem not_isOpenEvent_wire (p : Params) (bs : Octets) (h : ∃ i, decode p (.wire bs) = .ok i ∧ isCommand i = false) :
    ¬isOpenEvent p (.word (.wire bs)) := by
  rintro ⟨role, port, speed, n, t, h'⟩
  obtain ⟨i, hi, hc⟩ := h
  rw [hi] at h'
  cases h'
  cases hc

/-- The acknowledgement of a SEND toggles the initiator's bit. -/
theorem witness_SequenceBitChangesOnSuccessOnly : ∃ (s t : State) (e : Event) (rest : List Event),
    s.env.inputs = e :: rest ∧ step s = .next t ∧ t.seq ≠ s.seq ∧ e ≠ .reset ∧ ¬isOpenEvent s.params e :=
  ⟨withEvent (.word (.wire [0x7E, 0x03, 0x85, 0x86, 0x7E])) (awaitAck 0 []), _, _, [], rfl, rfl, by decide, nofun,
    not_isOpenEvent_wire _ _ ⟨_, test_decode_rr1, rfl⟩⟩

theorem witness_ConfigurationWrittenByOpenOnly : ∃ (s t : State) (e : Event) (rest : List Event),
    step s = .next t ∧ s.env.inputs = e :: rest ∧ e ≠ .reset ∧ ¬isOpenEvent s.params e :=
  ⟨withEvent (.word (.wire [0x7E, 0x03, 0x85, 0x86, 0x7E])) (awaitAck 0 []), _, _, [], rfl, rfl, nofun,
    not_isOpenEvent_wire _ _ ⟨_, test_decode_rr1, rfl⟩⟩

/-- Counters of two bits, one of them full. -/
theorem witness_CountersNeverFall : ∃ (s t : State) (e : Event) (rest : List Event) (w : Nat),
    s.env.inputs = e :: rest ∧ step s = .next t ∧ e ≠ .reset ∧ ¬isOpenEvent s.params e ∧ s.params.statW = some w ∧
    s.stats.framesSent < 2 ^ w ∧ s.stats.retransmissions < 2 ^ w ∧ s.stats.timeouts < 2 ^ w ∧
    s.stats.errors < 2 ^ w ∧ s.stats.timeouts + 1 = 2 ^ w :=
  ⟨withEvent .timerExpiry { awaitUA 0 [.ok] with
      params := { P with statW := some 2 }
      stats := { framesSent := 1, retransmissions := 0, timeouts := 3, errors := 0 } },
    _, _, [], 2, rfl, rfl, nofun, nofun, rfl, by decide⟩

theorem witness_ActionsAreAppended : ∃ s t : State, step s = .next t ∧ t.env.asks = 1 :=
  ⟨withEvent .timerExpiry (awaitUA 0 [.ok]), _, rfl, rfl⟩

theorem witness_OneResultPerCommand :
    (∃ (s t : State) (e : Event) (rest : List Event), s.env.inputs = e :: rest ∧ step s = .next t ∧ e ≠ .reset ∧
      s.phase ≠ .none ∧ t.phase = .none) ∧
    (∃ (s t : State) (e : Event) (rest : List Event), s.env.inputs = e :: rest ∧ step s = .next t ∧
      s.phase = .none ∧ isCommandEvent s.params e) ∧
    (∃ (s t : State) (e : Event) (rest : List Event), s.env.inputs = e :: rest ∧ step s = .next t ∧
      s.phase = .none ∧ ¬isCommandEvent s.params e) ∧
    ∃ (s t : State) (e : Event) (rest : List Event), s.env.inputs = e :: rest ∧ step s = .next t ∧ e = .reset :=
  ⟨⟨withEvent (.word (.wire [0x7E, 0x03, 0x85, 0x86, 0x7E])) (awaitAck 0 []), _, _, [], rfl, rfl, nofun, nofun, rfl⟩,
    ⟨withEvent (.word (.command 4 [])) (closed []), _, _, [], rfl, rfl, rfl, .statistics, test_decode_statistics, rfl⟩,
    ⟨withEvent .timerExpiry (closed []), _, _, [], rfl, rfl, rfl, nofun⟩,
    withEvent .reset (awaitAck 0 []), _, _, [], rfl, rfl, rfl⟩

theorem witness_HandshakeOpensBothEnds : ∃ i r : State,
    Inv i ∧ Inv r ∧ i.params = r.params ∧ i.params.wf ∧ i.phase = .none ∧ i.session = .closed ∧
    i.nthAnswer 0 = .ok ∧ i.nthAnswer 1 = .ok ∧ r.phase = .awaitSET ∧ r.rx.state = .idle ∧ r.answer = .ok :=
  ⟨closed [.ok, .ok], awaitSET [.ok], closed_inv _, awaitSET_inv _, rfl, default_wf, by decide⟩

theorem witness_SentPayloadIsDelivered : ∃ (i r : State) (payload : Octets),
    Inv i ∧ Inv r ∧ i.params = r.params ∧ i.params.wf ∧ i.phase = .none ∧ i.session = .open_ ∧
    i.role = .initiator ∧ i.failed = false ∧ r.phase = .awaitData ∧ r.rx.state = .idle ∧ i.seq = r.seq ∧
    payload.length ≤ i.params.maxPayload ∧ i.answer = .ok ∧ r.answer = .ok :=
  ⟨connected .initiator [.ok], awaitData false [.ok], eight, connected_inv _ _, awaitData_inv _ _, rfl, default_wf,
    by decide⟩

theorem witness_RepeatedFrameDeliveredOnce : ∃ (r : State) (payload : Octets),
    Inv r ∧ r.params.wf ∧ r.phase = .awaitData ∧ r.rx.state = .idle ∧ payload.length ≤ r.params.maxPayload ∧
    r.nthAnswer 0 = .ok ∧ r.nthAnswer 1 = .ok :=
  ⟨awaitData true [.ok, .ok], eight, awaitData_inv _ _, default_wf, by decide⟩

end Sys2Proof.Machine.Tests
end

section
/-! PROOFS. The Frame Codec's statements about stuffing and built frames (40_codec.md R122, R123, R128). -/

namespace Sys2Proof

/-! ## Stuffing (40_codec.md R122, R123) -/

/-- What follows an escape in a stuffed region: the reserved octet under `STUFF_MASK` (40_codec.md R122). -/
theorem reserved_xor_mask {b : Octet} (h : b = Config.FLAG ∨ b = Config.ESC) :
    b ^^^ Config.STUFF_MASK = 0x5E ∨ b ^^^ Config.STUFF_MASK = 0x5D := by
  rcases h with rfl | rfl
  · exact .inl rfl
  · exact .inr rfl

theorem reserved_xor_mask_ne_esc {b : Octet} (h : b = Config.FLAG ∨ b = Config.ESC) :
    b ^^^ Config.STUFF_MASK ≠ Config.ESC := by
  rcases reserved_xor_mask h with h | h <;> rw [h] <;> decide

/-- Settles O1: the two forms are `stuffOctet_reserved` and `stuffOctet_plain`. -/
theorem stuffOctetForms : Obligations.StuffOctetForms := fun _ =>
  ⟨fun h => ⟨stuffOctet_reserved h, reserved_xor_mask h⟩, stuffOctet_plain,
    stuffOctet_reserved (.inl rfl), stuffOctet_reserved (.inr rfl)⟩

/-- Stuffing adds one octet for each reserved one (40_codec.md R123). -/
theorem stuff_length (s : Octets) : (stuff s).length = s.length + s.countP isReserved := by
  induction s with
  | nil => rfl
  | cons b s ih =>
    rcases stuffOctet_cases b with ⟨hb, h⟩ | ⟨hf, he, h⟩
    · rw [List.countP_cons_of_pos ((isReserved_iff b).mpr hb)]
      simp [h, ih]; omega
    · rw [List.countP_cons_of_neg (by simp [hf, he])]
      simp [h, ih]; omega

/-- Every escape of a stuffed region is the first octet of a two-octet form (40_codec.md R123). -/
theorem stuff_after_esc {s u v : Octets} (h : stuff s = u ++ Config.ESC :: v) :
    ∃ w, v = 0x5E :: w ∨ v = 0x5D :: w := by
  induction s generalizing u with
  | nil => simp at h
  | cons b s ih =>
    rw [stuff_cons] at h
    rcases stuffOctet_cases b with ⟨hb, hform⟩ | ⟨-, he, hform⟩ <;> rw [hform] at h
    · rcases u with _ | ⟨_, _ | ⟨_, u⟩⟩ <;> simp only [List.cons_append, List.nil_append, List.cons.injEq] at h
      · obtain ⟨-, rfl⟩ := h
        exact ⟨stuff s, (reserved_xor_mask hb).imp (by rw [·]) (by rw [·])⟩
      · obtain ⟨-, hesc, -⟩ := h
        exact absurd hesc (reserved_xor_mask_ne_esc hb)
      · obtain ⟨-, -, htail⟩ := h
        exact ih htail
    · rcases u with _ | ⟨_, u⟩ <;> simp only [List.cons_append, List.nil_append, List.cons.injEq] at h
      · exact absurd h.1 he
      · exact ih h.2

/-- Settles O2, by induction on the region for the length and for what follows an escape. -/
theorem stuffedRegionShape : Obligations.StuffedRegionShape :=
  ⟨stuff_nil, stuff_cons, by decide, fun s => ⟨stuff_length s, flag_notMem_stuff s, fun _ _ => stuff_after_esc⟩⟩

/-! ## Lengths of built frames (40_codec.md R128)

Both reserved octets, 0x7E and 0x7D, have bit 6 set. Hence the checksum of an even number of reserved octets has it
clear and is not reserved: this is why an even payload stays one octet below the bound `2n + 7`. -/

/-- Over reserved octets alone, bit 6 of the checksum is the parity of their number. -/
theorem bcc_bit6_of_reserved {s : Octets} (h : ∀ b ∈ s, isReserved b = true) :
    (bcc s).getLsbD 6 = decide (s.length % 2 = 1) := by
  induction s with
  | nil => rfl
  | cons b s ih =>
    obtain ⟨hb, hs⟩ := List.forall_mem_cons.mp h
    have hbit : b.getLsbD 6 = true := by
      rcases (isReserved_iff b).mp hb with rfl | rfl <;> rfl
    rw [bcc_cons, BitVec.getLsbD_xor, hbit, ih hs]
    rcases Nat.mod_two_eq_zero_or_one s.length with hp | hp <;> simp [Nat.add_mod, hp]

theorem bcc_not_reserved_of_even {s : Octets} (h : ∀ b ∈ s, isReserved b = true) (heven : s.length % 2 = 0) :
    isReserved (bcc s) = false := by
  have hbit := bcc_bit6_of_reserved h
  rw [heven] at hbit
  by_contra hr
  rcases (isReserved_iff _).mp (by simpa using hr) with hr | hr <;> rw [hr] at hbit <;> exact absurd hbit (by decide)

theorem bcc_replicate (n : Nat) (b : Octet) : bcc (List.replicate n b) = if n % 2 = 1 then b else 0 := by
  induction n with
  | zero => rfl
  | succ n ih =>
    rw [List.replicate_succ, bcc_cons, ih]
    rcases Nat.mod_two_eq_zero_or_one n with hp | hp <;> simp [Nat.add_mod, hp]

/-- The length in R128's own terms: the count is its j. -/
theorem infoFrame_length (a c : Octet) (payload : Octets) :
    (infoFrame a c payload).length = 6 + payload.length + (payload ++ [bcc payload]).countP isReserved := by
  simp only [infoFrame, dataRegion, List.length_append, stuff_length, List.length_cons, List.length_nil]
  omega

theorem countP_region_le (payload : Octets) :
    (payload ++ [bcc payload]).countP isReserved ≤ payload.length + 1 := by
  simpa using List.countP_le_length (p := isReserved) (l := payload ++ [bcc payload])

/-- With an even payload some octet of payload and checksum2 is not reserved. -/
theorem countP_region_le_of_even {payload : Octets} (heven : payload.length % 2 = 0) :
    (payload ++ [bcc payload]).countP isReserved ≤ payload.length := by
  have hle : payload.countP isReserved ≤ payload.length := List.countP_le_length
  rw [List.countP_append, List.countP_singleton]
  by_cases hall : payload.countP isReserved = payload.length
  · simp [bcc_not_reserved_of_even (List.countP_eq_length.mp hall) heven, hle]
  · split <;> omega

/-- A payload of flags alone reaches the bound for its parity. -/
theorem infoFrame_replicate_flag_length (a c : Octet) (n : Nat) :
    (infoFrame a c (List.replicate n Config.FLAG)).length = 2 * n + 6 + n % 2 := by
  have hchk : [bcc (List.replicate n Config.FLAG)].countP isReserved = n % 2 := by
    rw [bcc_replicate]
    rcases Nat.mod_two_eq_zero_or_one n with hp | hp <;> rw [hp] <;> rfl
  have hflag : isReserved Config.FLAG = true := rfl
  rw [infoFrame_length, List.countP_append, hchk, List.countP_replicate, if_pos hflag, List.length_replicate]
  omega

/-- Every length up to `MAX_PAYLOAD` has a built frame of the greatest length for its parity. -/
theorem exists_buildDataFrame_length {p : Params} {n : Nat} (h : n ≤ p.maxPayload) (s : Bool) (a : Octet) :
    ∃ payload f, payload.length = n ∧ buildDataFrame p payload s a = .ok f ∧ f.length = 2 * n + 6 + n % 2 :=
  ⟨List.replicate n Config.FLAG, _, List.length_replicate, buildDataFrame_of_fits (by simpa using h) s a,
    infoFrame_replicate_flag_length ..⟩

/-- Settles O6: the bounds count the reserved octets of payload and checksum2, at most n + 1 of them and at most n
for even n; payloads of flags reach both. -/
theorem buildDataFrameLengths : Obligations.BuildDataFrameLengths := by
  intro p s a
  refine ⟨fun payload h => buildDataFrame_of_tooLarge h s a, fun payload hfits => ?_, fun n hn hodd => ?_,
    fun n hn heven => ?_, ?_⟩
  · have hlen := infoFrame_length a (p.cI s) payload
    have hle := countP_region_le payload
    refine ⟨_, buildDataFrame_of_fits hfits s a, rfl, hlen, by omega, fun hnil => ?_, fun heven => ?_⟩
    · rw [List.eq_nil_of_length_eq_zero hnil]; rfl
    · have := countP_region_le_of_even heven; omega
  · simpa [hodd] using exists_buildDataFrame_length hn s a
  · simpa [heven] using exists_buildDataFrame_length hn s a
  · have hframe : infoFrame 0x03 Config.C_I0 [0x01, 0x02] = [0x7E, 0x03, 0x00, 0x03, 0x01, 0x02, 0x03, 0x7E] := by
      decide
    rw [← hframe]
    exact buildDataFrame_of_fits (by simp) false 0x03

end Sys2Proof
end

section
/-! PROOFS. The Data-Frame Receiver's statement about the escape flag (42_data_receiver.md R175). -/

namespace Sys2Proof.Machine

section
variable {p : Params} {phase : Phase} {seq : Bool} {b : Octet} {r : Receiver}

/-! ## What each receiver operation does to `ESC_PEND` -/

@[simp] theorem rxAppend_escPend (v : Octet) : (rxAppend p v r).2.escPend = r.escPend := by
  unfold rxAppend; split <;> rfl

@[simp] theorem rxClose_escPend (n : Nat) : (rxClose n r).2.escPend = r.escPend := by
  simp only [rxClose]; split
  · rfl
  · split <;> rfl

@[simp] theorem rxIdle_escPend : (rxIdle b r).2.escPend = r.escPend := by
  unfold rxIdle; split <;> rfl

@[simp] theorem rxFlag_escPend : (rxFlag p phase b r).2.escPend = r.escPend := by
  unfold rxFlag; split
  · rfl
  · split <;> rfl

@[simp] theorem rxAddr_escPend : (rxAddr p phase seq b r).2.escPend = r.escPend := by
  unfold rxAddr; split
  · rfl
  · split
    · rfl
    · split <;> rfl

/-- A header checksum that opens a data region clears the flag (41_ctrl_receiver.md R156); no other branch
writes it. -/
theorem rxCtrl_escPend (h : r.escPend = false) : (rxCtrl b r).2.escPend = false := by
  unfold rxCtrl; split
  · split
    · rfl
    · exact h
  · split <;> exact h

@[simp] theorem rxBcc1_escPend : (rxBcc1 b r).2.escPend = r.escPend := by
  unfold rxBcc1; split <;> rfl

/-- An unescaped escape octet only sets the flag (42_data_receiver.md R175). -/
theorem rxPayload_escape (h : r.escPend = false) :
    rxPayload p Config.ESC r = (.needMore, { r with escPend := true }) := by
  simp [rxPayload, h]

/-- A pending escape is spent by the octet after it, and of the unescaped octets only `ESC` sets the flag. -/
theorem rxPayload_escPend : (rxPayload p b r).2.escPend = true ↔ r.escPend = false ∧ b = Config.ESC := by
  cases hesc : r.escPend with
  | true => simp [rxPayload, hesc]
  | false =>
    by_cases hb : b = Config.ESC
    · simp [hb, rxPayload_escape hesc]
    · simp only [rxPayload, hesc, hb, Bool.false_eq_true, if_false, and_false, iff_false]
      split
      · split <;> simp [hesc]
      · simp [hesc]

/-- Outside `RX_PAYLOAD` no octet sets the flag. -/
theorem rxStep_escPend_of_not_payload (hs : r.state ≠ .payload) (hesc : r.escPend = false) :
    (rxStep p phase seq b r).2.escPend = false := by
  cases h : r.state with
  | idle => simpa [rxStep_idle h]
  | flag => simpa [rxStep_flag h]
  | addr => simpa [rxStep_addr h]
  | ctrl => rw [rxStep_ctrl h]; exact rxCtrl_escPend hesc
  | bcc1 => simpa [rxStep_bcc1 h]
  | payload => exact absurd h hs
  | done => simpa [rxStep_done h]

end

/-- Settles O12: in `RX_PAYLOAD` by `rxPayload_escPend`; elsewhere the premise has the flag clear, and it stays
clear. -/
theorem escapePendsOnlyOnUnescapedEsc : Obligations.EscapePendsOnlyOnUnescapedEsc := by
  intro p phase seq b r hinv
  refine ⟨fun hs hesc hb => ?_, ?_⟩
  · rw [rxStep_payload hs, hb, rxPayload_escape hesc]
  · by_cases hs : r.state = .payload
    · simp [rxStep_payload hs, hs, rxPayload_escPend]
    · have hesc : r.escPend = false := by simpa using mt hinv hs
      simp [rxStep_escPend_of_not_payload hs hesc, hs]

end Sys2Proof.Machine
end

section
/-! PROOFS. The ARQ Controller's statements about the connect confirm and the payload that is too large
(43_arq_controller.md R204, R211). -/

namespace Sys2Proof.Machine

/-! ## The connect confirm (43_arq_controller.md R204) -/

/-- All that R204 writes, in one record. -/
theorem acceptUA_eq (s : State) : acceptUA s =
    { s with
      session := .open_, phase := .none, retry := 0, timerArmed := false, rx := s.rx.searching
      env := s.env.after 0 [.timerCancel, .result (.ok .connection)] } := by
  simp [acceptUA, State.timerCancel, State.rxInit, State.result, State.emit, Env.after, Receiver.init,
    Receiver.searching]

/-- Settles O30: `UA` is the header that `AwaitUA` accepts, so `deliver_controlFrame` brings it to R204's rule. -/
theorem uaCompletesOpen : Obligations.UaCompletesOpen := by
  intro s hinv hwf hphase hbcc1
  have haccept : accept s.params s.phase s.seq Config.C_UA = some (.ctrl, false) := by simp [hphase, accept]
  have hpayload := hinv.not_payload (by simp [hphase])
  have hframe := deliver_controlFrame hinv hwf (by simp [hphase]) hbcc1 hpayload haccept
  have haddress : expA s.params s.phase = Config.A_TX := by rw [hphase]; rfl
  rw [haddress] at hframe
  calc exec (.ua Config.A_TX) s
      = deliver (ctrl Config.A_TX Config.C_UA) s := rfl
    _ = _ := hframe
    _ = .next (acceptUA _) := onOutcome_acceptUA _ hphase
    _ = _ := by rw [acceptUA_eq]; rfl

/-! ## The payload that is too large (43_arq_controller.md R211) -/

/-- A result between commands only emits its action: `PHASE` is `None` already. -/
theorem result_of_idle {s : State} (h : s.phase = .none) (r : Result) :
    s.result r = { s with env := s.env.after 0 [.result r] } := by
  rw [State.result, ← h]; rfl

theorem sendPayload_tooLarge {s : State} {payload : Octets} (h : s.params.maxPayload < payload.length) :
    sendPayload payload s = s.result (.err .payloadTooLarge) := by
  rw [sendPayload, buildDataFrame_of_tooLarge h]

/-- Settles O24: a legal SEND runs `sendPayload`, whose length test comes before any input or output. -/
theorem sendTooLargeAnswered : Obligations.SendTooLargeAnswered := by
  intro s payload hphase hsession hrole hfailed hlarge
  have hlegal : s.sendLegal = true := by simp [State.sendLegal, hsession, hrole, hfailed]
  calc exec (.send payload) s
      = command s.sendLegal (sendPayload payload) s := rfl
    _ = .next (sendPayload payload s) := by rw [hlegal, command_legal s _ hphase]
    _ = _ := by rw [sendPayload_tooLarge hlarge, result_of_idle hphase]

end Sys2Proof.Machine
end

section
/-! PROOFS. The statement about a host command while another is in progress (70_reset_and_hazards.md R310). -/

namespace Sys2Proof.Machine

/-- Every host command is `command` under its own legality test (43_arq_controller.md R200). -/
theorem exec_eq_command {i : Instr} (h : isCommand i = true) :
    ∃ (legal : State → Bool) (body : State → State), ∀ s, exec i s = command (legal s) body s := by
  cases i with
  | open_ role port speed n t => exact ⟨State.openLegal, openLink role port speed n t, fun _ => rfl⟩
  | send payload => exact ⟨State.sendLegal, sendPayload payload, fun _ => rfl⟩
  | receive => exact ⟨State.receiveLegal, startReceive, fun _ => rfl⟩
  | close report => exact ⟨State.closeLegal, closeLink report, fun _ => rfl⟩
  | statistics => exact ⟨fun _ => true, fun s => s.result (.ok (.snapshot s.stats)), fun _ => rfl⟩
  | _ => cases h

/-- Settles O18: every host command goes through `command`, which tests `PHASE` before legality. -/
theorem commandWhileBusyHasNoStep : Obligations.CommandWhileBusyHasNoStep := by
  intro i s hcommand hbusy
  obtain ⟨legal, body, hexec⟩ := exec_eq_command hcommand
  rw [hexec, command_busy s _ _ hbusy]

end Sys2Proof.Machine
end

section
/-! PROOFS. The Frame Codec's statements about destuffing, the checksum and the parsed region (40_codec.md R121, R124,
R125, R129), and the words written out from 30_encoding.md. -/

namespace Sys2Proof

/-! ## Destuffing (40_codec.md R124, R125) -/

theorem destuff_stuff (s : Octets) : destuff (stuff s) = .ok s := by
  have h := destuffGo_stuff s [] []
  simpa [destuff, destuffGo] using h

theorem stuff_of_plain {s : Octets} (hf : Config.FLAG ∉ s) (he : Config.ESC ∉ s) : stuff s = s := by
  induction s with
  | nil => rfl
  | cons b s ih =>
    simp only [List.mem_cons, not_or] at hf he
    rw [stuff_cons, stuffOctet_plain (Ne.symm hf.1) (Ne.symm he.1), ih hf.2 he.2, List.singleton_append]

/-- Settles O3: the converse round trip fails for an escape before an octet that needs none (30_encoding.md R94). -/
theorem destuffInvertsStuff : Obligations.DestuffInvertsStuff :=
  ⟨destuff_stuff, fun _ => stuff_of_plain, [0x7D, 0x41], [0x61], by decide, by decide⟩

/-- The escape makes one octet of the two, whatever the second is. -/
theorem destuffGo_escape (b : Octet) (r out : Octets) :
    destuffGo (Config.ESC :: b :: r) false out = destuffGo r false (out ++ [b ^^^ Config.STUFF_MASK]) := by
  simp [destuffGo]

/-- Octets after a region that destuffs by itself are destuffed after it, no escape pending. -/
theorem destuffGo_append {r d out : Octets} {pending : Bool} (t : Octets) (h : destuffGo r pending out = .ok d) :
    destuffGo (r ++ t) pending out = destuffGo t false d := by
  induction r generalizing pending out with
  | nil =>
    cases pending with
    | false => cases h; rfl
    | true => cases h
  | cons b r ih =>
    cases pending with
    | true => exact ih h
    | false =>
      rw [List.cons_append]
      by_cases hb : b = Config.ESC
      · simp only [destuffGo, if_pos hb] at h ⊢
        exact ih h
      · simp only [destuffGo, if_neg hb] at h ⊢
        exact ih h

theorem destuff_append {r d : Octets} (t : Octets) (h : destuff r = .ok d) : destuff (r ++ t) = destuffGo t false d :=
  destuffGo_append t h

/-- Settles O4: the stuffed regions around the escape destuff to themselves. -/
theorem destuffEscapes : Obligations.DestuffEscapes := by
  refine ⟨fun s t b => ?_, fun r d h => destuff_append _ h, rfl⟩
  calc destuff (stuff s ++ Config.ESC :: b :: stuff t)
      = destuffGo (Config.ESC :: b :: stuff t) false s := destuffGo_stuff s _ []
    _ = destuffGo (stuff t ++ []) false (s ++ [b ^^^ Config.STUFF_MASK]) := by rw [destuffGo_escape, List.append_nil]
    _ = .ok (s ++ (b ^^^ Config.STUFF_MASK) :: t) := by rw [destuffGo_stuff]; simp [destuffGo]

/-! ## The checksum (40_codec.md R121) -/

/-- A change of one octet by a mask changes the checksum by that mask. -/
theorem bcc_flip (u v : Octets) (b m : Octet) : bcc (u ++ (b ^^^ m) :: v) = bcc (u ++ b :: v) ^^^ m := by
  rw [bcc_append, bcc_append, bcc_cons, bcc_cons]
  ac_rfl

theorem bcc_append_bcc (s : Octets) : bcc (s ++ [bcc s]) = 0 := by
  rw [bcc_append_singleton]; exact BitVec.xor_self

/-- Settles O5: one change leaves its mask in the checksum, and two changes by one mask cancel. -/
theorem checksumDetectsOneOctet : Obligations.ChecksumDetectsOneOctet := by
  refine ⟨bcc_append, bcc_append_bcc, fun s u v b m hgood hm => ?_, fun u v w b c m => ?_⟩
  · rw [bcc_flip, ← hgood, bcc_append_bcc]
    simpa using hm
  · have hinner : u ++ (b ^^^ m) :: v ++ c :: w = u ++ (b ^^^ m) :: (v ++ c :: w) := by simp
    rw [bcc_flip, hinner, bcc_flip, BitVec.xor_assoc, BitVec.xor_self]
    simp

/-! ## The region of a built frame (40_codec.md R129, R130) -/

theorem infoFrame_region (a c : Octet) (payload : Octets) :
    ((infoFrame a c payload).drop 4).dropLast = dataRegion payload := by
  simp [infoFrame]

/-- Settles O7: between `BCC1` and the closing flag a built frame carries the region of its payload. -/
theorem builtRegionParses : Obligations.BuiltRegionParses := by
  refine ⟨fun p payload f s a h => ?_, rfl⟩
  rw [(buildDataFrame_ok h).2, infoFrame_region, destuffPayload_dataRegion]

/-- Settles O10: each word is closed, and so is the answer of the decoder. -/
theorem writtenOutWordsDecode : Obligations.WrittenOutWordsDecode := by
  refine ⟨?_, ?_, ?_, ?_, ?_, ?_, ?_, ?_, ?_, ?_⟩ <;> decide

end Sys2Proof
end

section
/-! PROOFS. The decoder and the encoder (30_encoding.md sections 1 to 6): each undoes the other. -/

namespace Sys2Proof

/-! ## Decode of encode -/

section
variable {p : Params} {a : Octet}

/-- The seven control codes are tried in the order of `controlCodes`, which lists each once (00_scope.md R9 (a)). -/
theorem controlInstr_codes (h : p.controlCodes.Nodup) :
    controlInstr p a Config.C_SET = some (.set a) ∧ controlInstr p a Config.C_UA = some (.ua a) ∧
    controlInstr p a p.cDISC = some (.disc a) ∧ controlInstr p a p.cRR0 = some (.rr0 a) ∧
    controlInstr p a p.cRR1 = some (.rr1 a) ∧ controlInstr p a p.cREJ0 = some (.rej0 a) ∧
    controlInstr p a p.cREJ1 = some (.rej1 a) := by
  simp only [Params.controlCodes, List.nodup_cons, List.mem_cons, List.not_mem_nil, or_false, not_or] at h
  obtain ⟨hset, hua, hdisc, hrr0, hrr1, hrej0, -⟩ := h
  simp [controlInstr, Ne.symm, hset, hua, hdisc, hrr0, hrr1, hrej0, eq_comm]

theorem infoInstr_codes (h : Config.C_I0 ≠ p.cI1) (payload : Octets) :
    infoInstr p a (p.cI false) payload = some (.i0 a payload) ∧
    infoInstr p a (p.cI true) payload = some (.i1 a payload) := by
  simp [infoInstr, Params.cI, h.symm]

/-- A control frame whose control octet names `i`. -/
theorem decode_ctrl {c : Octet} {i : Instr} (hi : i.wf p = true) (hc : controlInstr p a c = some i) :
    decode p (.wire (ctrl a c)) = .ok i := by
  rw [decode, decodeWire_ctrl, hc, acceptIfWf_some hi]

/-- An information frame whose control octet names `i`. -/
theorem decode_infoFrame {c : Octet} {payload : Octets} {i : Instr} (hi : i.wf p = true)
    (hc : infoInstr p a c payload = some i) : decode p (.wire (infoFrame a c payload)) = .ok i := by
  rw [decode, decodeWire_infoFrame, hc, acceptIfWf_some hi]

end

/-- Settles O8: a frame's control octet names its constructor because the codes differ; a command's operands are read
back one by one. -/
theorem decodeOfEncode : Obligations.DecodeOfEncode := by
  intro p i hp hi
  obtain ⟨hnodup, hinfo, -, -⟩ := hp.1
  have control (a : Octet) := controlInstr_codes (a := a) hnodup
  cases i with
  | set a => exact decode_ctrl hi (control a).1
  | ua a => exact decode_ctrl hi (control a).2.1
  | disc a => exact decode_ctrl hi (control a).2.2.1
  | rr0 a => exact decode_ctrl hi (control a).2.2.2.1
  | rr1 a => exact decode_ctrl hi (control a).2.2.2.2.1
  | rej0 a => exact decode_ctrl hi (control a).2.2.2.2.2.1
  | rej1 a => exact decode_ctrl hi (control a).2.2.2.2.2.2
  | i0 a payload => exact decode_infoFrame hi (infoInstr_codes hinfo payload).1
  | i1 a payload => exact decode_infoFrame hi (infoInstr_codes hinfo payload).2
  | open_ role port speed n t => cases role <;> rfl
  | close report => cases report <;> rfl
  | _ => rfl

/-! ## Encode of decode -/

section
variable {p : Params} {a c : Octet} {i : Instr}

/-- Whichever code matched, it is the control octet of the frame. -/
theorem encode_controlInstr (h : controlInstr p a c = some i) : encode p i = .wire (ctrl a c) := by
  unfold controlInstr at h
  repeat' split at h
  all_goals cases h
  all_goals subst c; rfl

theorem encode_infoInstr {payload : Octets} (h : infoInstr p a c payload = some i) :
    encode p i = .wire (infoFrame a c payload) := by
  unfold infoInstr at h
  repeat' split at h
  all_goals cases h
  all_goals subst c; rfl

/-- Five accepted octets are a control frame, octet for octet (30_encoding.md R81, R83). -/
theorem decodeControl_ok {f x g : Octet} (h : decodeControl p f a c x g = .ok i) :
    [f, a, c, x, g] = ctrl a c ∧ acceptIfWf p (controlInstr p a c) = .ok i := by
  unfold decodeControl at h
  iterate 3
    split at h
    · cases h
  simp_all [ctrl]

/-- What parsed has its checksum2 as the last octet of what the region destuffs to (40_codec.md R129). -/
theorem decodeInfo_ok {f x : Octet} {rest : Octets} (h : decodeInfo p f a c x rest = .ok i) :
    ∃ payload, f :: a :: c :: x :: rest = infoFrame a c payload ∧
      acceptIfWf p (infoInstr p a c payload) = .ok i := by
  unfold decodeInfo at h
  iterate 7
    split at h
    · cases h
  rename_i hf hg hx _ _ payload chk _ hb hs
  simp only [ne_eq, Decidable.not_not] at hf hg hx hb hs
  have hrest : rest = rest.dropLast ++ [Config.FLAG] := (List.dropLast_append_getLast? _ (by simpa using hg)).symm
  refine ⟨payload, ?_, h⟩
  rw [hrest, ← hs, ← hb, hf, hx]
  rfl

theorem decodeWire_ok {bs : Octets} (h : decodeWire p bs = .ok i) :
    encode p i = .wire bs ∧ i.wf p = true := by
  unfold decodeWire at h
  split at h
  · obtain ⟨hbs, haccept⟩ := decodeControl_ok h
    obtain ⟨hc, hwf⟩ := acceptIfWf_ok haccept
    exact ⟨by rw [hbs]; exact encode_controlInstr hc, hwf⟩
  · obtain ⟨payload, hbs, haccept⟩ := decodeInfo_ok h
    obtain ⟨hc, hwf⟩ := acceptIfWf_ok haccept
    exact ⟨by rw [hbs]; exact encode_infoInstr hc, hwf⟩
  · cases h

theorem encodeRole_of_decodeRole {n : Nat} {role : Role} (h : decodeRole n = some role) : encodeRole role = n := by
  unfold decodeRole at h
  split at h <;> cases h <;> rfl

theorem toNat_of_decodeBit {n : Nat} {bit : Bool} (h : decodeBit n = some bit) : bit.toNat = n := by
  unfold decodeBit at h
  split at h <;> cases h <;> rfl

theorem decodeCommand_ok {code : BitVec 3} {operands : List Operand} (h : decodeCommand code operands = .ok i) :
    encode p i = .command code operands ∧ i.wf p = true := by
  have hcode : code = BitVec.ofNat 3 code.toNat := by simp
  unfold decodeCommand at h
  split at h
  any_goals cases h
  · rename_i r port speed n t hc
    split at h
    · rename_i role hrole
      cases h
      rw [hcode, hc, encode, encodeRole_of_decodeRole hrole]
      exact ⟨rfl, rfl⟩
    · cases h
  · rename_i payload hc
    rw [hcode, hc]
    exact ⟨rfl, rfl⟩
  · rename_i hc
    rw [hcode, hc]
    exact ⟨rfl, rfl⟩
  · rename_i r hc
    split at h
    · rename_i report hbit
      cases h
      rw [hcode, hc, encode, toNat_of_decodeBit hbit]
      exact ⟨rfl, rfl⟩
    · cases h
  · rename_i hc
    rw [hcode, hc]
    exact ⟨rfl, rfl⟩

end

/-- Settles O9: every accepting branch of the decoder has tested each octet, or each operand, that the encoder
writes. -/
theorem encodeOfDecode : Obligations.EncodeOfDecode := by
  intro p w i h
  cases w with
  | wire bs => exact decodeWire_ok h
  | command code operands => exact decodeCommand_ok h

end Sys2Proof
end

section
/-! PROOFS. The machine's statements about a step: what it runs (60_exceptions.md R271), the invariant of Safety.lean at
reset and after every step, and the two reasons for which a step is refused. -/

namespace Sys2Proof.Machine

variable {s : State}

/-! ## The two ports: a word of octets is received, a command word is a command or refused -/

/-- A frame as an instruction is the arrival of its octets (44_frames.md). -/
theorem exec_frame {i : Instr} {bs : Octets} (h : encode s.params i = .wire bs) : exec i s = deliver bs s := by
  cases i <;> cases h <;> rfl

theorem isCommand_of_encode {p : Params} {i : Instr} {code : BitVec 3} {ops : List Operand}
    (h : encode p i = .command code ops) : isCommand i = true := by
  cases i <;> first | rfl | cases h

theorem not_isCommand_of_encode {p : Params} {i : Instr} {bs : Octets} (h : encode p i = .wire bs) :
    isCommand i = false := by
  cases i <;> first | rfl | cases h

/-- Octets go through the receiver whether or not they are a frame (30_encoding.md R93). -/
theorem runEvent_wire (bs : Octets) (s : State) : runEvent (.word (.wire bs)) s = deliver bs s := by
  cases h : decode s.params (.wire bs) with
  | ok i => rw [runEvent_decoded s h, exec_frame (encodeOfDecode _ _ _ h).1]
  | error e => rw [runEvent_undecoded s h]; rfl

/-- What a word of the command port that decodes decodes to. -/
theorem isCommand_of_decode {p : Params} {code : BitVec 3} {ops : List Operand} {i : Instr}
    (h : decode p (.command code ops) = .ok i) : isCommand i = true :=
  isCommand_of_encode (encodeOfDecode _ _ _ h).1

/-! ## Steps, event by event -/

/-- Settles O47. -/
theorem stepRunsDecodedInstruction : Obligations.StepRunsDecodedInstruction := by
  intro s w rest i hin hdec
  rw [step_event s hin]
  exact runEvent_decoded (s.takeInput rest) hdec

theorem heldDelivered_read {b : Octet} {bs : Octets} (hp : s.phase ≠ .none) (hb : s.env.held = b :: bs) :
    heldDelivered s = rxByte b { s with env := { s.env with held := bs } } := by
  unfold heldDelivered
  split
  · exact absurd ‹_› hp
  · simp_all
  · simp_all

/-- Settles O48, one event per clause. -/
theorem stepOnOtherInputs : Obligations.StepOnOtherInputs := by
  intro s rest
  refine ⟨step_idle s, fun bs _ hin _ => ?_, fun code ops e hin hdec => ?_, fun b hin hp => ?_,
    fun b bs hin hp hb => ?_, fun b bs hin hb => ?_⟩ <;> rw [step_event s hin]
  · exact runEvent_wire bs (s.takeInput rest)
  · exact runEvent_undecoded (s.takeInput rest) hdec
  · exact rxByte_held (s.takeInput rest) b hp
  · exact heldDelivered_read (s := s.takeInput rest) hp hb
  · simp [runEvent, heldLost, State.takeInput, hb]

/-- Settles O40: while `PHASE` is `None` every octet of the frame is held. -/
theorem frameBetweenCommandsIsHeld : Obligations.FrameBetweenCommandsIsHeld := by
  intro s i bs hp henc
  rw [exec_frame henc, deliver_held s bs hp]

/-- A run of one step more, by the outcome of its first step. -/
theorem run_succ {M : Host.Core} {n : Nat} {s : M.State} {o : Host.Outcome M.State M.Fault M.Refusal}
    (h : M.step s = o) : M.run (n + 1) s =
    match (generalizing := false) o with
    | .next t => M.run n t
    | .fault e => .fault e
    | .refused e => .refused e := by
  cases o <;> simp [Host.Core.run, h]

/-- Settles O49, by induction on the octets: receiving does not look at the events to come. -/
theorem wireWordIsItsOctets : Obligations.WireWordIsItsOctets := by
  intro s bs rest
  have word : step (withInputs (.word (.wire bs) :: rest) s) = deliver bs (withInputs rest s) := by
    rw [step_event _ rfl, runEvent_wire]; rfl
  refine word.trans ?_
  change _ = Host.Core.run core bs.length (withInputs (bs.map Event.rxByte ++ rest) s)
  clear word
  induction bs generalizing s with
  | nil => rfl
  | cons b bs ih =>
    have hbyte : step (withInputs ((b :: bs).map Event.rxByte ++ rest) s) =
        mapNext (withInputs (bs.map Event.rxByte ++ rest)) (rxByte b s) := by
      rw [step_event _ rfl, ← rxByte_withInputs]; rfl
    have hstep : core.step (withInputs ((b :: bs).map Event.rxByte ++ rest) s) = _ := hbyte
    rw [deliver_cons, rxByte_withInputs]
    cases hb : rxByte b s with
    | next t => rw [hb] at hstep; exact (ih t).trans (run_succ (M := core) hstep).symm
    | fault e => rw [hb] at hstep; exact (run_succ (M := core) hstep).symm
    | refused e => rw [hb] at hstep; exact (run_succ (M := core) hstep).symm

/-! ## Reset -/

theorem defaultParams_wf : Params.default.wf := by
  refine ⟨by decide, by decide, by decide, by decide, ?_⟩
  simp [Params.pairs, Params.default, Config.A_TX, Config.C_SET, Config.C_UA, Config.C_I0, Config.FLAG]

/-- Settles O46. -/
theorem resetStateValues : Obligations.ResetStateValues := by
  refine ⟨fun p e => ?_, Params.default, Env.quiet, rfl, defaultParams_wf⟩
  simp [State.resetOf, Receiver.resetOf]

/-- Settles O45: the state after a reset event is `State.resetOf`. -/
theorem resetEventGivesResetValues : Obligations.ResetEventGivesResetValues := by
  intro s rest hin
  refine ⟨State.resetOf s.params (s.takeInput rest).env, by rw [step_event s hin]; rfl, ?_⟩
  simp [State.resetOf, Receiver.resetOf, State.takeInput]

theorem resetOf_inv {p : Params} (h : p.buffersFit) (e : Env) : Inv (State.resetOf p e) :=
  Inv.of_ended (r := Receiver.resetOf p.powerOn) ⟨h, Nat.zero_le _, h.2, ⟨Nat.zero_le _, h.1⟩, nofun⟩ rfl (.inl rfl)
    rfl rfl

/-- Settles O50: a reset state is an ended command whose receiver was just initialised. -/
theorem invariantAtReset : Obligations.InvariantAtReset :=
  ⟨fun _ e h => resetOf_inv h e, resetOf_inv (p := Params.default) (by decide) _⟩

/-! ## Every event keeps the invariant -/

theorem startReceive_inv (h : Inv s) (hp : s.phase = .none) (hl : s.receiveLegal = true) : Inv (startReceive s) := by
  simp only [State.receiveLegal, Bool.and_eq_true, beq_iff_eq, Bool.not_eq_true'] at hl
  obtain ⟨⟨hsession, hrole⟩, hfailed⟩ := hl
  refine Inv.of_init (r := s.rx) (h.fits.congr rfl rfl rfl rfl rfl rfl h.fits.failed) ?_ ?_ ?_ ?_ ?_ ?_ rfl <;>
    simp [startReceive, hsession, hrole, hfailed, sessionFits, roleFits, Phase.timed, txFits, h.timer_none hp]

/-- A command between commands: its body when it is legal, and `InvalidOperation` when it is not. -/
theorem command_safe (h : Inv s) (hp : s.phase = .none) {legal : Bool} {body : State → State}
    (hbody : legal = true → Inv (body s)) : ∃ t, command legal body s = .next t ∧ Inv t := by
  cases legal with
  | true => exact ⟨_, command_legal s body hp, hbody rfl⟩
  | false => exact ⟨_, command_illegal s body hp, result_inv h hp _⟩

theorem exec_command_safe (h : Inv s) (hp : s.phase = .none) {i : Instr} (hi : isCommand i = true) :
    ∃ t, exec i s = .next t ∧ Inv t := by
  cases i with
  | open_ role port speed n t => exact command_safe h hp fun _ => openLink_inv h hp role port speed n t
  | send payload => exact command_safe h hp fun hl => sendPayload_inv h hp hl payload
  | receive => exact command_safe h hp fun hl => startReceive_inv h hp hl
  | close report => exact command_safe h hp fun _ => closeLink_inv h hp report
  | statistics => exact command_safe h hp fun _ => result_inv h hp _
  | _ => cases hi

theorem timerExpiry_safe (h : Inv s) : ∃ t, timerExpiry s = .next t ∧ Inv t := by
  have htimer := h.timer
  cases hw : s.phase.timed with
  | none => exact ⟨s, by simp [timerExpiry, htimer, hw], h⟩
  | some w =>
    refine ⟨retryOrFail w ({ s with timerArmed := false } : State).countTimeout,
      by simp [timerExpiry, htimer, hw], ?_⟩
    exact retryOrFail_inv ((h.inTimedWait hw).congr _ _ _ rfl)

theorem channelErrorEvent_safe (h : Inv s) : ∃ t, channelErrorEvent s = .next t ∧ Inv t := by
  refine ⟨_, rfl, ?_⟩
  split
  · exact h
  · exact channelFail_inv h.fits

theorem heldDelivered_safe (h : Inv s) : ∃ t, heldDelivered s = .next t ∧ Inv t := by
  unfold heldDelivered
  split
  · exact ⟨s, rfl, h⟩
  · exact ⟨s, rfl, h⟩
  · exact rxByte_safe (h.env _) _

/-- Why a word has no step: a command while one is in progress, or a command-port word that is none (entries 9, 10). -/
def RefusalReason (s : State) (w : Words) (r : Refusal) : Prop :=
  (r = .commandWhileBusy ∧ s.phase ≠ .none ∧ ∃ i, decode s.params w = .ok i ∧ isCommand i = true) ∨
  (r = .notACommand ∧ ∃ code ops e, w = .command code ops ∧ decode s.params w = .error e)

/-- From the invariant a word of the command port runs, keeping it, or is refused for a reason. -/
theorem commandWord_safe (h : Inv s) (code : BitVec 3) (ops : List Operand) :
    (∃ t, runEvent (.word (.command code ops)) s = .next t ∧ Inv t) ∨
    ∃ r, runEvent (.word (.command code ops)) s = .refused r ∧ RefusalReason s (.command code ops) r := by
  cases hdec : decode s.params (.command code ops) with
  | error e => exact .inr ⟨_, runEvent_undecoded s hdec, .inr ⟨rfl, code, ops, e, rfl, hdec⟩⟩
  | ok i =>
    have hi := isCommand_of_decode hdec
    rw [runEvent_decoded s hdec]
    by_cases hp : s.phase = .none
    · exact .inl (exec_command_safe h hp hi)
    · exact .inr ⟨_, commandWhileBusyHasNoStep i s hi hp, .inl ⟨rfl, hp, i, hdec, hi⟩⟩

/-- What any event does from the invariant. -/
theorem runEvent_safe (h : Inv s) (e : Event) :
    (∃ t, runEvent e s = .next t ∧ Inv t) ∨
    ∃ w r, e = .word w ∧ runEvent e s = .refused r ∧ RefusalReason s w r := by
  cases e with
  | word w =>
    cases w with
    | wire bs => rw [runEvent_wire]; exact .inl (deliver_safe h bs)
    | command code ops => exact (commandWord_safe h code ops).imp_right fun ⟨r, hr⟩ => ⟨_, r, rfl, hr⟩
  | rxByte b => exact .inl (rxByte_safe h b)
  | heldDelivered => exact .inl (heldDelivered_safe h)
  | heldLost => exact .inl ⟨_, rfl, h.env _⟩
  | timerExpiry => exact .inl (timerExpiry_safe h)
  | channelError => exact .inl (channelErrorEvent_safe h)
  | reset => exact .inl ⟨_, rfl, resetOf_inv h.buffers _⟩

/-- The same of a step. -/
theorem step_safe (h : Inv s) :
    (∃ t, step s = .next t ∧ Inv t) ∨
    ∃ w rest r, s.env.inputs = .word w :: rest ∧ step s = .refused r ∧ RefusalReason s w r := by
  cases hin : s.env.inputs with
  | nil => exact .inl ⟨s, step_idle s hin, h⟩
  | cons e rest =>
    rw [step_event s hin]
    have htaken : Inv (s.takeInput rest) := h.env _
    rcases runEvent_safe htaken e with hnext | ⟨w, r, rfl, hrefused, hreason⟩
    · exact .inl hnext
    · exact .inr ⟨w, rest, r, rfl, hrefused, hreason⟩

/-- Settles O51, by the cases of `runEvent_safe`. -/
theorem stepKeepsInvariant : Obligations.StepKeepsInvariant := by
  intro s t h hstep
  rcases step_safe h with ⟨u, hu, hinv⟩ | ⟨-, -, r, -, hr, -⟩
  · rw [hstep] at hu; cases hu; exact hinv
  · rw [hstep] at hr; cases hr

/-- Settles O52, by the same cases. -/
theorem stepNeverFaults : Obligations.StepNeverFaults := by
  intro s h
  rcases step_safe h with ⟨t, ht, -⟩ | ⟨w, rest, r, hin, hr, hreason⟩
  · exact ⟨by simp [SafeStep, ht], by simp [ht]⟩
  · refine ⟨by simp [SafeStep, hr], fun r' hr' => ?_⟩
    rw [hr] at hr'
    cases hr'
    exact ⟨w, rest, hin, hreason⟩

end Sys2Proof.Machine
end

section
/-! PROOFS. The receivers' statements (41_ctrl_receiver.md R153 to R160, 42_data_receiver.md R174 to R184): the states,
and what runs of octets report. -/

namespace Sys2Proof.Machine

section
variable {p : Params} {phase : Phase} {seq : Bool} {b : Octet} {r : Receiver}

/-! ## The header states (41_ctrl_receiver.md section 2) -/

/-- Settles O11, state by state, each clause one branch of the state's rule. -/
theorem headerStateTransitions : Obligations.HeaderStateTransitions := by
  intro p phase seq b r
  refine ⟨fun h => ?_, fun h => ?_, fun h => ?_, fun h => ?_, fun h => ?_⟩
  · rw [rxStep_idle h, rxIdle]
    exact ⟨fun hb => if_pos hb, fun hb => if_neg hb⟩
  · rw [rxStep_flag h, rxFlag]
    exact ⟨fun ha => if_pos ha, fun ha hb => by rw [if_neg ha, if_pos hb], fun ha hb => by rw [if_neg ha, if_neg hb]⟩
  · rw [rxStep_addr h, rxAddr]
    exact ⟨fun kind dup ha => by simp [ha], fun ha hr => by simp [ha, hr], fun ha hr hb =>
      by simp only [ha, hr, if_pos hb]; rfl,
      fun ha hr hb => by simp only [ha, hr, if_neg hb]; rfl⟩
  · rw [rxStep_ctrl h, rxCtrl]
    exact ⟨fun hx hk => by simp [hx, hk], fun hx hk => by simp [hx, hk], fun hx hb => by rw [if_neg hx, if_pos hb],
      fun hx hb => by rw [if_neg hx, if_neg hb]⟩
  · rw [rxStep_bcc1 h, rxBcc1]
    exact ⟨fun hb => if_pos hb, fun hb => if_neg hb⟩

/-! ## The payload state (42_data_receiver.md section 2) -/

theorem rxAppend_stores (h : r.len ≠ p.accCap) (v : Octet) :
    rxAppend p v r = (.needMore, { r with acc := storeCell r.acc r.len v, len := r.len + 1 }) := if_neg h

theorem rxAppend_full (h : r.len = p.accCap) (v : Octet) :
    rxAppend p v r = (.resync, { r with len := 0, state := .idle }) := if_pos h

/-- The octets that are data: any after an escape, and those outside the stuffing alphabet (R176, R179). -/
abbrev Receiver.takesAsData (r : Receiver) (b : Octet) : Prop :=
  r.escPend = true ∨ (b ≠ Config.ESC ∧ b ≠ Config.FLAG)

/-- The octet that a data octet stands for. -/
abbrev Receiver.unmasked (r : Receiver) (b : Octet) : Octet := if r.escPend then b ^^^ Config.STUFF_MASK else b

theorem rxPayload_data (h : r.takesAsData b) :
    rxPayload p b r = rxAppend p (r.unmasked b) { r with escPend := false } := by
  cases he : r.escPend with
  | true => simp [rxPayload, he, Receiver.unmasked]
  | false =>
    obtain ⟨hesc, hflag⟩ := h.resolve_left (by simp [he])
    simp only [rxPayload, he, hesc, hflag, Receiver.unmasked, Bool.false_eq_true, if_false]
    rw [← he]

theorem rxPayload_flag_empty (he : r.escPend = false) (hlen : r.len = 0) :
    rxPayload p Config.FLAG r = (.resync, { r with state := .flag }) := by
  simp [rxPayload, he, hlen, show Config.FLAG ≠ Config.ESC by decide]

/-- Settles O13: data octets go through `rxAppend`, and the closing flag of a region with an octet is
`rxStep_closingFlag`. -/
theorem payloadStateTransitions : Obligations.PayloadStateTransitions := by
  intro p phase seq b r hs hcells
  refine ⟨fun hfree hdata => ?_, fun hfull hdata => ?_, fun he hb hlen => ?_, fun he hb n hn => ?_⟩
  · have hne : r.len ≠ p.accCap := by omega
    refine ⟨storeCell r.acc r.len (r.unmasked b), ?_, take_storeCell _ _ _⟩
    rw [rxStep_payload hs, rxPayload_data hdata, rxAppend_stores (r := { r with escPend := false }) hne]
  · rw [rxStep_payload hs, rxPayload_data hdata, rxAppend_full (r := { r with escPend := false }) hfull]
  · rw [rxStep_payload hs, hb, rxPayload_flag_empty he hlen]
  · have hlast : r.acc.take (n + 1) = r.acc.take n ++ [r.acc.getD n 0] := take_succ_getD _ (by omega)
    refine ⟨r.acc.getD n 0, hlast, ?_⟩
    rw [hb]
    exact (rxStep_closingFlag hs he hn hcells (by rw [Receiver.value, hn, hlast])).1

/-! ## Runs of octets: the header -/

/-- A state that reads no latch. -/
theorem latched_with_early {st : RxState} (h : st = .idle ∨ st = .flag ∨ st = .done) :
    Latched p phase seq { r with state := st } := latched_of_early h

theorem rxAppend_latched (hl : Latched p phase seq r) (v : Octet) : Latched p phase seq (rxAppend p v r).2 := by
  unfold rxAppend
  split
  · exact latched_of_early (.inl rfl)
  · exact ⟨hl.address, hl.control, hl.kindBcc1, hl.kindPayload⟩

theorem rxClose_state (n : Nat) : (rxClose n r).2.state = .done := by
  simp only [rxClose]; split
  · rfl
  · split <;> rfl

theorem rxPayload_latched (hl : Latched p phase seq r) : Latched p phase seq (rxPayload p b r).2 := by
  have hpending : ∀ pending, Latched p phase seq { r with escPend := pending } :=
    fun _ => ⟨hl.address, hl.control, hl.kindBcc1, hl.kindPayload⟩
  unfold rxPayload
  split
  · exact rxAppend_latched (hpending false) _
  · split
    · exact hpending true
    · split
      · split
        · exact latched_of_early (.inr (.inl rfl))
        · exact latched_of_early (.inr (.inr (rxClose_state _)))
      · exact rxAppend_latched hl _

/-- The latches agree with the wait after every octet, whatever it reported (10_state.md R34, R35). -/
theorem rxStep_latched (hl : Latched p phase seq r) : Latched p phase seq (rxStep p phase seq b r).2 := by
  cases hs : r.state with
  | idle =>
    rw [rxStep_idle hs, rxIdle]
    split
    · exact latched_with_early (.inr (.inl rfl))
    · exact hl
  | flag =>
    rw [rxStep_flag hs, rxFlag]
    split
    · exact ⟨fun _ => ‹_›, by simp, by simp, by simp⟩
    · split
      · exact hl
      · exact latched_with_early (.inl rfl)
  | addr =>
    rw [rxStep_addr hs, rxAddr]
    split
    · exact ⟨fun _ => hl.address (by simp [hs]), fun _ => ‹_›, by simp, by simp⟩
    · split
      · exact latched_with_early (.inl rfl)
      · split
        · exact latched_with_early (.inr (.inl rfl))
        · exact latched_with_early (.inl rfl)
  | ctrl =>
    have ha := hl.address (by simp [hs])
    have hc := hl.control (by simp [hs])
    rw [rxStep_ctrl hs, rxCtrl]
    split
    · split
      · exact ⟨fun _ => ha, fun _ => hc, by simp, fun _ => ‹_›⟩
      · exact ⟨fun _ => ha, fun _ => hc, fun _ => ‹_›, by simp⟩
    · split
      · exact latched_with_early (.inr (.inl rfl))
      · exact latched_with_early (.inl rfl)
  | bcc1 =>
    rw [rxStep_bcc1 hs, rxBcc1]
    split
    · exact latched_with_early (.inr (.inr rfl))
    · exact latched_with_early (.inl rfl)
  | payload => rw [rxStep_payload hs]; exact rxPayload_latched hl
  | done =>
    rw [rxStep_done hs, rxIdle]
    split
    · exact latched_with_early (.inr (.inl rfl))
    · exact hl

theorem rxRun_latched (bs : Octets) (hl : Latched p phase seq r) : Latched p phase seq (rxRun p phase seq bs r).2 := by
  induction bs generalizing r with
  | nil => exact hl
  | cons b bs ih => exact ih (rxStep_latched hl)

/-- Only `AwaitData` receives a data region (43_arq_controller.md R201). -/
theorem Latched.not_payload (hl : Latched p phase seq r) (hp : phase ≠ .awaitData) : r.state ≠ .payload := by
  intro hs
  have hc := hl.control (by simp [hs])
  rw [hl.kindPayload hs] at hc
  exact hp (accept_info_phase hc)

/-- Outside a data region, `RX_DONE` is reached by an accepted frame only (41_ctrl_receiver.md R157). -/
theorem rxStep_accepted_of_done (hn : r.state ≠ .done) (hp : r.state ≠ .payload)
    (hd : (rxStep p phase seq b r).2.state = .done) : (rxStep p phase seq b r).1 = .accepted := by
  cases hs : r.state with
  | idle => rw [rxStep_idle hs, rxIdle] at hd; split at hd <;> simp [hs] at hd
  | flag => rw [rxStep_flag hs, rxFlag] at hd; repeat' split at hd
            all_goals simp [hs] at hd
  | addr => rw [rxStep_addr hs, rxAddr] at hd; repeat' split at hd
            all_goals simp at hd
  | ctrl => rw [rxStep_ctrl hs, rxCtrl] at hd; repeat' split at hd
            all_goals simp at hd
  | bcc1 =>
    rw [rxStep_bcc1 hs, rxBcc1] at hd ⊢
    split at hd
    · rw [if_pos ‹_›]
    · cases hd
  | payload => exact absurd hs hp
  | done => exact absurd hs hn

/-- The rest of an acceptable header after its flag (41_ctrl_receiver.md R154 to R156). -/
def Receiver.afterHeader (r : Receiver) (a c : Octet) (k : FrameKind) (d : Bool) : Receiver :=
  match k with
  | .ctrl => { r with state := .bcc1, a := a, c := c, kind := .ctrl, dup := d }
  | .info => { r with state := .payload, a := a, c := c, kind := .info, dup := d, len := 0, escPend := false }

theorem rxRun_afterFlag (h : r.state = .flag) {c : Octet} {k : FrameKind} {d : Bool}
    (ha : accept p phase seq c = some (k, d)) :
    rxRun p phase seq [expA p phase, c, expA p phase ^^^ c] r =
      ([.needMore, .needMore, .needMore], r.afterHeader (expA p phase) c k d) := by
  simp only [rxRun, rxStep_address h]
  rw [rxStep_control rfl ha]
  cases k <;> simp [rxStep, rxCtrl, Receiver.afterHeader]

/-! ## Acceptance after noise (41_ctrl_receiver.md R160 (a)) -/

/-- In a wait for control frames, noise that reports nothing ends in a state that is not `RX_DONE`. -/
theorem rxRun_not_done (bs : Octets) (hp : phase ≠ .awaitData) (hl : Latched p phase seq r) (hn : r.state ≠ .done)
    (hquiet : RxOutcome.accepted ∉ (rxRun p phase seq bs r).1) : (rxRun p phase seq bs r).2.state ≠ .done := by
  induction bs generalizing r with
  | nil => exact hn
  | cons b bs ih =>
    simp only [rxRun, List.mem_cons, not_or] at hquiet
    exact ih (rxStep_latched hl)
      (fun hd => hquiet.1 (rxStep_accepted_of_done hn (hl.not_payload hp) hd).symm) hquiet.2

/-- Settles O14: the noise leaves a hunting state, from which a flag opens the frame whatever the header before it. -/
theorem controlFrameAcceptedAfterNoise : Obligations.ControlFrameAcceptedAfterNoise := by
  intro p phase seq noise c r hwf _ hdata hidle haccept hnoacc _ hbcc1
  have hstart : Latched p phase seq r := latched_of_early (.inl hidle)
  have hl := rxRun_latched noise hstart
  have hdone := rxRun_not_done noise hdata hstart (by simp [hidle]) hnoacc
  obtain ⟨first, hfirst, hflag⟩ := rxStep_openingFlag hwf hl ⟨hbcc1, hl.not_payload hdata, hdone⟩
  refine ⟨first, hfirst, ?_⟩
  have hframe : ctrl (expA p phase) c =
      Config.FLAG :: ([expA p phase, c, expA p phase ^^^ c] ++ [Config.FLAG]) := rfl
  rw [rxRun_append, hframe, rxRun, hflag, rxRun_append, rxRun_afterFlag rfl haccept]
  simp [rxRun, rxStep, rxBcc1, Receiver.afterHeader]

/-! ## Soundness (41_ctrl_receiver.md R160 (b), (c)) -/

/-- The octets that a header state stands for: those received last. -/
def Receiver.headerSoFar (r : Receiver) : Octets :=
  match r.state with
  | .flag => [Config.FLAG]
  | .addr => [Config.FLAG, r.a]
  | .ctrl => [Config.FLAG, r.a, r.c]
  | .bcc1 => [Config.FLAG, r.a, r.c, r.a ^^^ r.c]
  | _ => []

theorem flag_suffix (xs : Octets) (h : b = Config.FLAG) : [Config.FLAG] <:+ xs ++ [b] := by
  rw [h]; exact List.suffix_append _ _

theorem rxAppend_headerSoFar (hs : r.state = .payload) (v : Octet) : (rxAppend p v r).2.headerSoFar = [] := by
  unfold rxAppend
  split
  · rfl
  · simp [Receiver.headerSoFar, hs]

theorem rxPayload_headerSoFar (hs : r.state = .payload) :
    (rxPayload p b r).2.headerSoFar <:+ r.headerSoFar ++ [b] := by
  unfold rxPayload
  split
  · rw [rxAppend_headerSoFar (r := { r with escPend := false }) hs]; exact List.nil_suffix
  · split
    · simp [Receiver.headerSoFar, hs]
    · split
      · split
        · exact flag_suffix _ ‹_›
        · simp [Receiver.headerSoFar, rxClose_state]
      · rw [rxAppend_headerSoFar hs]; exact List.nil_suffix

/-- Every octet extends the header it stands in, or starts another. -/
theorem rxStep_headerSoFar : (rxStep p phase seq b r).2.headerSoFar <:+ r.headerSoFar ++ [b] := by
  cases hs : r.state with
  | idle =>
    rw [rxStep_idle hs, rxIdle]
    split
    · exact flag_suffix _ ‹_›
    · simp [Receiver.headerSoFar, hs]
  | flag =>
    rw [rxStep_flag hs, rxFlag]
    split
    · simp [Receiver.headerSoFar, hs]
    · split
      · simp only [Receiver.headerSoFar, hs]
        exact flag_suffix _ ‹_›
      · exact List.nil_suffix
  | addr =>
    rw [rxStep_addr hs, rxAddr]
    split
    · simp [Receiver.headerSoFar, hs]
    · split
      · exact List.nil_suffix
      · split
        · exact flag_suffix _ ‹_›
        · exact List.nil_suffix
  | ctrl =>
    rw [rxStep_ctrl hs, rxCtrl]
    split
    · split
      · exact List.nil_suffix
      · simp [Receiver.headerSoFar, hs, ‹b = _›]
    · split
      · exact flag_suffix _ ‹_›
      · exact List.nil_suffix
  | bcc1 =>
    rw [rxStep_bcc1 hs, rxBcc1]
    split <;> exact List.nil_suffix
  | payload => rw [rxStep_payload hs]; exact rxPayload_headerSoFar hs
  | done =>
    rw [rxStep_done hs, rxIdle]
    split
    · exact flag_suffix _ ‹_›
    · simp [Receiver.headerSoFar, hs]

theorem rxRun_snoc (bs : Octets) :
    rxRun p phase seq (bs ++ [b]) r =
      ((rxRun p phase seq bs r).1 ++ [(rxStep p phase seq b (rxRun p phase seq bs r).2).1],
        (rxStep p phase seq b (rxRun p phase seq bs r).2).2) := by
  rw [rxRun_append]; rfl

/-- What a state says was received was received. -/
theorem rxRun_headerSoFar (hidle : r.state = .idle) (bs : Octets) : (rxRun p phase seq bs r).2.headerSoFar <:+ bs := by
  induction bs using List.reverseRecOn with
  | nil => simp [rxRun, Receiver.headerSoFar, hidle]
  | append_singleton bs b ih =>
    rw [rxRun_snoc]
    exact rxStep_headerSoFar.trans ((List.suffix_append_inj_of_length_eq rfl).mpr ⟨ih, rfl⟩)

theorem rxAppend_quiet (v : Octet) : (rxAppend p v r).1.quiet := by
  unfold rxAppend
  split
  · exact .inr rfl
  · exact .inl rfl

/-- `Accepted` comes from `RX_BCC1` and its flag only (R157), `Rejected` from `RX_ADDR` and a reject octet (R155). -/
theorem rxStep_reports :
    ((rxStep p phase seq b r).1 = .accepted → r.state = .bcc1 ∧ b = Config.FLAG) ∧
    ((rxStep p phase seq b r).1 = .rejected → r.state = .addr ∧ rejects p phase seq b = true) := by
  cases hs : r.state with
  | idle => rw [rxStep_idle hs, rxIdle]; split <;> simp
  | flag => rw [rxStep_flag hs, rxFlag]; repeat' split
            all_goals simp
  | addr => rw [rxStep_addr hs, rxAddr]; repeat' split
            all_goals simp [*]
  | ctrl => rw [rxStep_ctrl hs, rxCtrl]; repeat' split
            all_goals simp
  | bcc1 => rw [rxStep_bcc1 hs, rxBcc1]; split <;> simp [*]
  | payload =>
    have append : ∀ v (r : Receiver), (rxAppend p v r).1 ≠ .accepted ∧ (rxAppend p v r).1 ≠ .rejected := by
      intro v r
      rcases rxAppend_quiet (p := p) (r := r) v with h | h <;> simp [h]
    rw [rxStep_payload hs, rxPayload]; repeat' split
    all_goals simp [append, rxClose]
    repeat' split
    all_goals simp
  | done => rw [rxStep_done hs, rxIdle]; split <;> simp

/-- Settles O15: the state before the last octet says which octets came before it. -/
theorem acceptedOnlyForWholeFrame : Obligations.AcceptedOnlyForWholeFrame := by
  intro p phase seq bs r hidle
  rcases List.eq_nil_or_concat' bs with rfl | ⟨bs, b, rfl⟩
  · simp [rxRun]
  have hl := rxRun_latched bs (latched_of_early (p := p) (phase := phase) (seq := seq) (.inl hidle))
  obtain ⟨before, hbefore⟩ := rxRun_headerSoFar (p := p) (phase := phase) (seq := seq) hidle bs
  obtain ⟨haccepted, hrejected⟩ := rxStep_reports (p := p) (phase := phase) (seq := seq) (b := b)
    (r := (rxRun p phase seq bs r).2)
  rw [rxRun_snoc, List.getLast?_concat]
  generalize (rxRun p phase seq bs r).2 = q at *
  refine ⟨fun h => ?_, fun h => ?_⟩
  · obtain ⟨hs, hflag⟩ := haccepted (Option.some.inj h)
    have hcontrol := hl.control (by simp [hs])
    rw [hl.kindBcc1 hs] at hcontrol
    refine ⟨before, _, ?_, _, hcontrol⟩
    rw [← hbefore, hflag, ← hl.address (by simp [hs])]
    simp [Receiver.headerSoFar, hs, ctrl]
  · obtain ⟨hs, hreject⟩ := hrejected (Option.some.inj h)
    refine ⟨before, b, ?_, hreject⟩
    rw [← hbefore, ← hl.address (by simp [hs])]
    simp [Receiver.headerSoFar, hs]

/-! ## Information frames (42_data_receiver.md R184) -/

/-- The control octet of an information frame is accepted in `AwaitData`, a duplicate when it has the other bit. -/
theorem accept_cI (h : p.wf) (seq dup : Bool) : accept p .awaitData seq (p.cI (seq ^^ dup)) = some (.info, dup) := by
  have hdiff : Config.C_I0 ≠ p.cI1 := h.1.2.1
  cases seq <;> cases dup <;> simp [accept, Params.cI, hdiff, hdiff.symm]

/-- A data region and its closing flag: nothing to report up to the flag, and then the payload is in the accumulator,
its checksum2 tested (42_data_receiver.md R180). -/
theorem rxRun_region (hs : r.state = .payload) (he : r.escPend = false) (hlen : r.len = 0) {d : Bool} (hd : r.dup = d)
    {payload : Octets} (hfits : payload.length ≤ p.maxPayload) (chk : Octet) :
    ∃ r', r'.value = payload ∧ rxRun p phase seq (stuff (payload ++ [chk]) ++ [Config.FLAG]) r =
      (List.replicate (stuff (payload ++ [chk])).length .needMore ++
        [if bcc payload ≠ chk then .bcc2Mismatch else if d then .duplicate else .dataAccepted], r') := by
  have hregion := rxRun_stuff (phase := phase) (seq := seq) (payload ++ [chk]) hs he (by omega)
    (by simp [hlen, Params.accCap]; omega)
  have hvalue : (storeAll r (payload ++ [chk])).value = payload ++ [chk] := by
    rw [storeAll_value _ _ (by omega)]; simp [Receiver.value, hlen]
  obtain ⟨hclose, htaken⟩ := rxStep_closingFlag (p := p) (phase := phase) (seq := seq)
    (r := storeAll r (payload ++ [chk])) hs he (n := payload.length) (by simp [storeAll, hlen])
    (by simp [storeAll, hlen]) hvalue
  refine ⟨{ storeAll r (payload ++ [chk]) with len := payload.length, state := .done }, htaken, ?_⟩
  subst hd
  rw [rxRun_append, hregion, rxRun, hclose]
  rfl

/-- Settles O16: from `RX_IDLE` the header opens the data region, which `rxRun_region` follows to its flag. -/
theorem infoFrameReported : Obligations.InfoFrameReported := by
  intro p seq dup payload r hwf hfits hidle
  have haccept := accept_cI hwf seq dup
  generalize p.cI (seq ^^ dup) = c at *
  have hopen : rxStep p .awaitData seq Config.FLAG r = (.needMore, { r with state := .flag }) := by
    simp [rxStep_idle hidle, rxIdle]
  have hheader := rxRun_afterFlag (r := { r with state := .flag }) rfl haccept
  obtain ⟨r', hvalue, hregion⟩ := rxRun_region (phase := .awaitData) (seq := seq)
    (r := ({ r with state := .flag } : Receiver).afterHeader Config.A_TX c .info dup)
    rfl rfl rfl (d := dup) rfl hfits (bcc payload)
  have hframe : infoOctets Config.A_TX c payload = Config.FLAG ::
      ([expA p .awaitData, c, expA p .awaitData ^^^ c] ++ (stuff (payload ++ [bcc payload]) ++ [Config.FLAG])) := by
    simp [infoOctets, expA]
  rw [hframe, rxRun, hopen, rxRun_append, hheader]
  simp only [expA, hregion]
  refine ⟨?_, hvalue⟩
  simp [Nat.add_comm 4, List.replicate_succ]

/-! ## The accumulator (42_data_receiver.md R184 (d)) -/

/-- What R184 (d) says of a receiver that has read `region`. -/
structure HoldsRegion (region : Octets) (r : Receiver) : Prop where
  state : r.state = .payload
  complete : r.escPend = false → destuff region = .ok r.value
  pending : r.escPend = true → ∃ before, region = before ++ [Config.ESC] ∧ destuff before = .ok r.value

theorem rxAppend_needMore {v : Octet} (h : (rxAppend p v r).1 = .needMore) :
    (rxAppend p v r).2.state = r.state ∧ (rxAppend p v r).2.value = r.value ++ [v] := by
  by_cases hfull : r.len = p.accCap
  · rw [rxAppend_full hfull] at h; cases h
  · rw [rxAppend_stores hfull]
    exact ⟨rfl, take_storeCell _ _ _⟩

theorem rxPayload_flag_ne_needMore (he : r.escPend = false) : (rxPayload p Config.FLAG r).1 ≠ .needMore := by
  cases hlen : r.len with
  | zero => simp [rxPayload_flag_empty he hlen]
  | succ n =>
    simp only [rxPayload, he, hlen, rxClose, show Config.FLAG ≠ Config.ESC by decide, Bool.false_eq_true, if_false,
      if_true]
    repeat' split
    all_goals simp

/-- One more octet of the region without news. -/
theorem HoldsRegion.step {region : Octets} (h : HoldsRegion region r) (hq : (rxStep p phase seq b r).1 = .needMore) :
    HoldsRegion (region ++ [b]) (rxStep p phase seq b r).2 := by
  rw [rxStep_payload h.state] at hq ⊢
  cases he : r.escPend with
  | true =>
    obtain ⟨before, rfl, hbefore⟩ := h.pending he
    rw [rxPayload_data (.inl he)] at hq ⊢
    obtain ⟨hs, hv⟩ := rxAppend_needMore hq
    refine ⟨hs.trans h.state, fun _ => ?_, fun hpend => by simp at hpend⟩
    rw [List.append_assoc, destuff_append _ hbefore, hv]
    simp [destuffGo, Receiver.unmasked, he, Receiver.value]
  | false =>
    have hregion := h.complete he
    by_cases hesc : b = Config.ESC
    · rw [hesc, rxPayload_escape he]
      exact ⟨h.state, by simp, fun _ => ⟨region, rfl, hregion⟩⟩
    · by_cases hflag : b = Config.FLAG
      · rw [hflag] at hq
        exact absurd hq (rxPayload_flag_ne_needMore he)
      · rw [rxPayload_data (.inr ⟨hesc, hflag⟩)] at hq ⊢
        obtain ⟨hs, hv⟩ := rxAppend_needMore hq
        refine ⟨hs.trans h.state, fun _ => ?_, fun hpend => by simp at hpend⟩
        rw [destuff_append _ hregion, hv]
        simp [destuffGo, Receiver.unmasked, he, hesc, Receiver.value]

/-- Settles O17, by induction on the region from its end. -/
theorem accumulatorIsDestuffedRegion : Obligations.AccumulatorIsDestuffedRegion := by
  intro p phase seq region r hs hlen hesc hquiet
  suffices h : HoldsRegion region (rxRun p phase seq region r).2 from ⟨h.state, h.complete, h.pending⟩
  induction region using List.reverseRecOn with
  | nil => exact ⟨hs, fun _ => by simp [rxRun, Receiver.value, hlen]; rfl, fun h => by simp [rxRun, hesc] at h⟩
  | append_singleton region b ih =>
    rw [rxRun_snoc] at hquiet ⊢
    simp only [List.mem_append, List.mem_singleton] at hquiet
    exact (ih fun o ho => hquiet o (.inl ho)).step (hquiet _ (.inr rfl))

end
end Sys2Proof.Machine
end

section
/-! PROOFS. The host commands' statements (43_arq_controller.md R200 to R231): what each command writes, in one record,
when the channel takes its frame and when it does not. -/

namespace Sys2Proof.Machine

variable (s : State)

/-! ## The shared procedures in one record each -/

/-- What `TimerCancel` emits when it runs (43_arq_controller.md R226, R232). -/
def State.cancelling : List Action := if s.timerArmed then [.timerCancel] else []

/-- `failing` in one record. -/
theorem failing_eq : failing s =
    { s with
      timerArmed := false, rx := s.rx.searching
      stats := { s.stats with errors := bump s.params s.stats.errors }
      env := s.env.after 0 s.cancelling } := by
  simp [failing, cancelIfArmed_eq, State.countError, State.rxInit, Receiver.init, Receiver.searching, Env.after,
    State.cancelling]

/-- `ChannelFail` in a session that stays open (R232 case Open). -/
theorem channelFail_open_eq (h : s.session = .open_) : channelFail s =
    { s with
      failed := true, phase := .none, timerArmed := false, rx := s.rx.searching
      stats := { s.stats with errors := bump s.params s.stats.errors }
      env := s.env.after 0 (s.cancelling ++ [.result (.err .channelError)]) } := by
  rw [channelFail_open s h, failing_eq]
  simp [State.result, State.emit, Env.after]

/-- `ChannelFail` in a session that is being opened or closed (R232 cases Connecting and Closing). -/
theorem channelFail_releases_eq (h : s.session = .connecting ∨ s.session = .closing) : channelFail s =
    { s with
      session := .closed, phase := .none, timerArmed := false, rx := s.rx.searching
      stats := { s.stats with errors := bump s.params s.stats.errors }
      env := s.env.after 1 (s.cancelling ++ [.chanClose s.answer, .result (.err .channelError)]) } := by
  rw [channelFail_releases s h, failing_eq]
  simp [State.result, State.emit, State.chanClose, State.chanAsk, State.answer, Env.after]

theorem env_after_after (e : Env) (m n : Nat) (xs ys : List Action) :
    (e.after m xs).after n ys = e.after (m + n) (xs ++ ys) := by
  simp [Env.after, Nat.add_assoc]

/-- A write that the channel takes (R225): the frame is counted and the rest of the rule runs. -/
theorem write_ok_eq (f : Octets) (k : State → State) (h : s.answer = .ok) : write f k s = k
    { s with
      stats := { s.stats with framesSent := bump s.params s.stats.framesSent }
      env := s.env.after 1 [.chanWrite f .ok] } := write_ok s f k h

/-- A write that the channel refuses (R225). -/
theorem write_error_eq (f : Octets) (k : State → State) (h : s.answer = .error) :
    write f k s = channelFail { s with env := s.env.after 1 [.chanWrite f .error] } := write_error s f k h

/-- A timed command whose frame left (R203, R210, R220). -/
theorem startTimedWait_ok (phase : Phase) (f : Octets) (h : s.answer = .ok) :
    startTimedWait phase (s.loadTx f) =
    { s with
      txbuf := f ++ s.txbuf.drop f.length, txlen := f.length, timerArmed := true, phase := phase, rx := s.rx.searching
      stats := { s.stats with framesSent := bump s.params s.stats.framesSent }
      env := s.env.after 1 [.chanWrite f .ok, .timerArm s.timeoutS] } := by
  rw [startTimedWait, write_ok_eq (s.loadTx f) _ _ h, loadTx_txFrame]
  simp [State.loadTx, loadCells, State.timerArm, State.emit, State.rxInit, Receiver.init, Receiver.searching, Env.after]

/-- A timed command whose frame was refused. -/
theorem startTimedWait_error (phase : Phase) (f : Octets) (h : s.answer = .error) :
    startTimedWait phase (s.loadTx f) = channelFail
      { s with
        txbuf := f ++ s.txbuf.drop f.length, txlen := f.length, env := s.env.after 1 [.chanWrite f .error] } := by
  rw [startTimedWait, write_error_eq (s.loadTx f) _ _ h, loadTx_txFrame]
  rfl

/-! ## Legality (43_arq_controller.md R200, R231) -/

theorem sendLegal_of (hses : s.session = .open_) (hrole : s.role = .initiator) (hf : s.failed = false) :
    s.sendLegal = true := by simp [State.sendLegal, hses, hrole, hf]

theorem exec_legal {i : Instr} {legal : Bool} {body : State → State} (hexec : exec i s = command legal body s)
    (hp : s.phase = .none) (hl : legal = true) : exec i s = .next (body s) := by
  rw [hexec, hl, command_legal s body hp]

theorem exec_illegal {i : Instr} {legal : Bool} {body : State → State} (hexec : exec i s = command legal body s)
    (hp : s.phase = .none) (hl : legal = false) :
    exec i s = .next { s with env := s.env.after 0 [.result (.err .invalidOperation)] } := by
  rw [hexec, hl, command_illegal s body hp, result_of_idle hp]

/-- Settles O19: each premise makes the command's legality test false. -/
theorem illegalCommandAnswered : Obligations.IllegalCommandAnswered := by
  intro s hp
  refine ⟨fun h role port speed n k => exec_illegal s rfl hp ?_, fun h payload => exec_illegal s rfl hp ?_,
    fun h => exec_illegal s rfl hp ?_, fun h hc report => exec_illegal s rfl hp ?_⟩
  · simp [State.openLegal, h]
  · rcases h with h | h | h <;> simp [State.sendLegal, h]
  · rcases h with h | h | h <;> simp [State.receiveLegal, h]
  · simpa [State.closeLegal, h] using hc

/-! ## OPEN (43_arq_controller.md section 3) -/

theorem exec_open (role : Role) (port : Octets) (speed n k : Nat) (hp : s.phase = .none) (hses : s.session = .closed) :
    exec (.open_ role port speed n k) s = .next (openLink role port speed n k s) :=
  exec_legal s rfl hp (by simp [State.openLegal, hses])

theorem openLink_ok (role : Role) (port : Octets) (speed n k : Nat) (h : s.answer = .ok) :
    openLink role port speed n k s =
      match role with
      | .initiator => openInitiator (configure .initiator n k (s.chanAsk (.chanOpen port speed .ok)))
      | .responder => openResponder (configure .responder n k (s.chanAsk (.chanOpen port speed .ok))) := by
  cases role <;> simp [openLink, h]

theorem openLink_error (role : Role) (port : Octets) (speed n k : Nat) (h : s.answer = .error) :
    openLink role port speed n k s = (s.chanAsk (.chanOpen port speed .error)).result (.err .channelError) := by
  simp [openLink, h]

/-- Settles O20. -/
theorem openInitiatorSendsSet : Obligations.OpenInitiatorSendsSet := by
  intro s port speed n k hp hses hopen hwrite
  rw [exec_open s _ _ _ _ _ hp hses, openLink_ok _ _ _ _ _ _ hopen]
  simp only [openInitiator]
  rw [startTimedWait_ok _ _ _ (by exact hwrite)]
  simp [configure, State.chanAsk, Env.after, ctrl, Config.FLAG, Config.A_TX, Config.C_SET]

/-- Settles O21. -/
theorem openResponderWaits : Obligations.OpenResponderWaits := by
  intro s port speed n k hp hses hopen
  rw [exec_open s _ _ _ _ _ hp hses, openLink_ok _ _ _ _ _ _ hopen]
  rfl

/-- Settles O22: the configured session is `Connecting`, so a refused SET releases the channel. -/
theorem openChannelErrors : Obligations.OpenChannelErrors := by
  intro s role port speed n k hinv hp hses
  refine ⟨fun hopen => ?_, fun hopen hwrite => ?_⟩
  · rw [exec_open s _ _ _ _ _ hp hses, openLink_error _ _ _ _ _ _ hopen, result_of_idle (by exact hp)]
    simp [State.chanAsk, Env.after]
  · rw [exec_open s _ _ _ _ _ hp hses, openLink_ok _ _ _ _ _ _ hopen]
    simp only [openInitiator]
    rw [startTimedWait_error _ _ _ (by exact hwrite), channelFail_releases_eq _ (.inl rfl)]
    simp [configure, State.chanAsk, Env.after, ctrl, Config.FLAG, Config.A_TX, Config.C_SET, hinv.timer_none hp,
      State.answer, State.nthAnswer, State.cancelling]

/-! ## SEND (43_arq_controller.md section 4) -/

theorem exec_send {payload : Octets} (hp : s.phase = .none) (hses : s.session = .open_) (hrole : s.role = .initiator)
    (hf : s.failed = false) (hfits : payload.length ≤ s.params.maxPayload) :
    exec (.send payload) s = .next (startTimedWait .awaitAck
      (({ s with txPlen := payload.length, retry := 0 } : State).loadTx
      (infoOctets Config.A_TX (s.params.cI s.seq) payload))) := by
  rw [exec_legal (legal := s.sendLegal) s rfl hp (sendLegal_of s hses hrole hf), sendPayload,
    buildDataFrame_of_fits hfits]
  rfl

/-- Settles O23. -/
theorem sendWritesFrameAndWaits : Obligations.SendWritesFrameAndWaits := by
  intro s payload hp hses hrole hf hfits hwrite
  rw [exec_send s hp hses hrole hf hfits, startTimedWait_ok _ _ _ (by exact hwrite)]

/-! ## RECEIVE (43_arq_controller.md section 5) -/

/-- Settles O26. -/
theorem receiveStartsWait : Obligations.ReceiveStartsWait := by
  intro s hp hses hrole hf
  exact exec_legal (legal := s.receiveLegal) (body := startReceive) s rfl hp
    (by simp [State.receiveLegal, hses, hrole, hf])

/-! ## CLOSE and STATISTICS (43_arq_controller.md sections 6 and 7) -/

theorem exec_close (report : Bool) (hp : s.phase = .none)
    (hses : s.session = .open_ ∨ (s.session = .closing ∧ s.role = .responder)) :
    exec (.close report) s = .next (closeLink report s) :=
  exec_legal (legal := s.closeLegal) s rfl hp (by
    rcases hses with h | ⟨h, hrole⟩
    · simp [State.closeLegal, h]
    · simp [State.closeLegal, h, hrole])

theorem closeLink_initiator (report : Bool) (h : s.role = .initiator) :
    closeLink report s = closeInitiator report s := by simp [closeLink, h]

theorem closeLink_responder (report : Bool) (h : s.role = .responder) :
    closeLink report s = closeResponder report s := by simp [closeLink, h]

theorem exec_close_initiator (report : Bool) (hp : s.phase = .none) (hses : s.session = .open_)
    (hrole : s.role = .initiator) : exec (.close report) s = .next (startTimedWait .awaitDISC
      (({ s with failed := false, session := .closing, retry := 0, report := report } : State).loadTx
        (ctrl Config.A_TX s.params.cDISC))) := by
  rw [exec_close s report hp (.inl hses), closeLink_initiator s report hrole]
  rfl

/-- Settles O27. -/
theorem closeInitiatorSendsDisc : Obligations.CloseInitiatorSendsDisc := by
  intro s report hp hses hrole hwrite
  rw [exec_close_initiator s report hp hses hrole, startTimedWait_ok _ _ _ (by exact hwrite)]
  rfl

/-- Settles O25: SEND's session is `Open` and CLOSE's is `Closing` when the write is refused; no timer is armed yet. -/
theorem refusedWriteEndsCommand : Obligations.RefusedWriteEndsCommand := by
  intro s hinv hp hses hrole hwrite
  have htimer := hinv.timer_none hp
  refine ⟨fun payload hf hfits => ?_, fun report => ?_⟩
  · rw [exec_send s hp hses hrole hf hfits, startTimedWait_error _ _ _ (by exact hwrite),
      channelFail_open_eq _ (by exact hses)]
    simp [State.cancelling, htimer, hp, env_after_after]
  · rw [exec_close_initiator s report hp hses hrole, startTimedWait_error _ _ _ (by exact hwrite),
      channelFail_releases_eq _ (.inr rfl)]
    simp [State.cancelling, htimer, hp, env_after_after, ctrl_length]
    rfl

/-- Settles O28. -/
theorem closeResponderReleases : Obligations.CloseResponderReleases := by
  intro s report hp hrole hses
  have hexec : exec (.close report) s = .next (closeResponder report s) := by
    rw [exec_close s report hp (hses.imp_right fun h => ⟨h, hrole⟩), closeLink_responder s report hrole]
  rw [hexec]
  refine ⟨fun h => ?_, fun h => ?_⟩ <;>
    simp [closeResponder, h, hp, State.result, State.emit, State.chanClose, State.chanAsk, State.countError, Env.after,
      State.closeValue]

/-- Settles O29. -/
theorem statisticsReturnsCounters : Obligations.StatisticsReturnsCounters := by
  intro s hp
  rw [exec_legal s (legal := true) rfl hp rfl, result_of_idle hp]

end Sys2Proof.Machine
end

section
/-! PROOFS. The statements about the events that are no command and no octet: a timer expiry and a channel error
(60_exceptions.md R272, R266; 43_arq_controller.md R226, R227, R232). -/

namespace Sys2Proof.Machine

variable (s : State)

/-! ## Retry and exhaustion in one record each -/

theorem cancelIfArmed_eq_after :
    s.cancelIfArmed = { s with timerArmed := false, env := s.env.after 0 s.cancelling } := by
  simp [cancelIfArmed_eq, State.cancelling, Env.after]

/-- The resend that left (R226). -/
theorem resend_ok (h : s.answer = .ok) : resend s =
    { s with
      timerArmed := true, rx := s.rx.searching
      stats := { s.stats with
        framesSent := bump s.params s.stats.framesSent
        retransmissions := bump s.params s.stats.retransmissions }
      env := s.env.after 1 [.chanWrite s.txFrame .ok, .timerArm s.timeoutS] } := by
  rw [resend, write_ok_eq s _ _ h]
  simp [State.countRetransmission, State.timerArm, State.emit, State.rxInit,
    Receiver.init, Receiver.searching, Env.after]

theorem resend_error (h : s.answer = .error) :
    resend s = channelFail { s with env := s.env.after 1 [.chanWrite s.txFrame .error] } := write_error_eq s _ _ h

/-- A spent SEND leaves the session open with `FAILED` (R227). -/
theorem exhausted_ack : exhausted .ack s =
    { s with
      failed := true, phase := .none, rx := s.rx.searching
      stats := { s.stats with errors := bump s.params s.stats.errors }
      env := s.env.after 0 [.result (.err .maxRetransmissionsExceeded)] } := rfl

/-- The error of an OPEN or a CLOSE that is spent (R227). -/
def TimedWait.spentError : TimedWait → Err
  | .ua => .peerUnreachable
  | _ => .maxRetransmissionsExceeded

/-- A spent OPEN or CLOSE releases the channel (R227). -/
theorem exhausted_releases {w : TimedWait} (h : w ≠ .ack) : exhausted w s =
    { s with
      session := .closed, phase := .none, rx := s.rx.searching
      stats := { s.stats with errors := bump s.params s.stats.errors }
      env := s.env.after 1 [.chanClose s.answer, .result (.err w.spentError)] } := by
  cases w with
  | ack => exact absurd rfl h
  | _ =>
    simp [exhausted, State.result, State.emit, State.chanClose, State.chanAsk, State.countError, State.rxInit,
      Receiver.init, Receiver.searching, Env.after, TimedWait.spentError, State.answer]

/-! ## The timer (60_exceptions.md R272) -/

/-- The state in which an expiry finds the retry budget: the timer has run out, and the expiry is counted. -/
def State.expired : State :=
  { s with timerArmed := false, stats := { s.stats with timeouts := bump s.params s.stats.timeouts } }

theorem timerExpiry_armed {w : TimedWait} (ha : s.timerArmed = true) (hw : s.phase.timed = some w) :
    timerExpiry s = .next (retryOrFail w s.expired) := by
  simp only [timerExpiry, ha, hw, if_true]; rfl

theorem timerExpiry_stale (h : s.timerArmed = false) : timerExpiry s = .next s := by simp [timerExpiry, h]

/-- Settles O43: with the invariant the timer is armed in the timed waits only. -/
theorem staleExpiryIgnored : Obligations.StaleExpiryIgnored := by
  intro s rest hin
  refine ⟨fun h => ?_, fun hinv hp => ?_⟩
  · rw [step_event s hin]
    exact timerExpiry_stale (s.takeInput rest) h
  · rw [hinv.timer]
    rcases hp with h | h | h <;> rw [h] <;> rfl

theorem expired_spends {w : TimedWait} (h : s.maxRetx ≤ s.retry + 1) :
    retryOrFail w s.expired = exhausted w { s.expired with retry := s.retry + 1 } := by
  rw [retryOrFail_spent s.expired w h, cancelIfArmed_of_disarmed _ rfl]
  rfl

theorem expired_resends {w : TimedWait} (h : s.retry + 1 < s.maxRetx) :
    retryOrFail w s.expired = resend { s.expired with retry := s.retry + 1 } := by
  rw [retryOrFail_resends s.expired w h, cancelIfArmed_of_disarmed _ rfl]
  rfl

variable {s}

theorem Inv.armed_of_timed {w : TimedWait} (h : Inv s) (hw : s.phase.timed = some w) : s.timerArmed = true := by
  rw [h.timer, hw]; rfl

/-- A step on an expiry in a timed wait. -/
theorem step_expiry {rest : List Event} {w : TimedWait} (h : Inv s) (hin : s.env.inputs = .timerExpiry :: rest)
    (hw : s.phase.timed = some w) : step s = .next (retryOrFail w (s.takeInput rest).expired) := by
  rw [step_event s hin]
  exact timerExpiry_armed (s.takeInput rest) (h.armed_of_timed hw) hw

/-- Settles O42: the three ways in which a wait is exhausted. -/
theorem expirySpendsBudget : Obligations.ExpirySpendsBudget := by
  intro s rest hinv hin hspent
  refine ⟨fun hp => ?_, fun hp => ?_, fun hp => ?_⟩
  · rw [step_expiry (w := .ua) hinv hin (by rw [hp]; rfl), expired_spends (s.takeInput rest) hspent,
      exhausted_releases _ (by decide)]
    rfl
  · rw [step_expiry (w := .ack) hinv hin (by rw [hp]; rfl), expired_spends (s.takeInput rest) hspent, exhausted_ack]
    rfl
  · rw [step_expiry (w := .disc) hinv hin (by rw [hp]; rfl), expired_spends (s.takeInput rest) hspent,
      exhausted_releases _ (by decide)]
    rfl

/-- Settles O41: the resend that left, and the refused one in a session that opens, closes or stays open. -/
theorem expiryResendsFrame : Obligations.ExpiryResendsFrame := by
  intro s rest hinv hin harmed hleft
  obtain ⟨w, hw⟩ := Option.isSome_iff_exists.mp (hinv.timer ▸ harmed)
  rw [step_expiry hinv hin hw, expired_resends (s.takeInput rest) hleft]
  refine ⟨fun hok => ?_, fun herror hp => ?_, fun herror hp => ?_⟩
  · rw [resend_ok _ (by exact hok)]
    simp [State.expired, State.takeInput, harmed, Env.after, State.txFrame]
  · have hses : s.session = .connecting ∨ s.session = .closing := by
      have := hinv.session
      rcases hp with h | h <;> rw [h] at this
      · exact .inl (beq_iff_eq.mp this)
      · exact .inr (beq_iff_eq.mp this)
    rw [resend_error _ (by exact herror), channelFail_releases_eq _ (by exact hses)]
    simp [State.expired, State.takeInput, State.cancelling, Env.after, State.txFrame, State.answer, State.nthAnswer]
  · have hses : s.session = .open_ := by
      have := hinv.session
      rw [hp] at this
      exact beq_iff_eq.mp this
    rw [resend_error _ (by exact herror), channelFail_open_eq _ (by exact hses)]
    simp [State.expired, State.takeInput, State.cancelling, Env.after, State.txFrame]

/-! ## A channel error (43_arq_controller.md R232) -/

theorem Inv.session_of_wait (h : Inv s) (hp : s.phase ≠ .none) : s.session ≠ .closed := by
  intro hc
  have := h.session
  rw [hc] at this
  cases hph : s.phase with
  | none => exact hp hph
  | _ => rw [hph] at this; cases this

/-- Settles O44: in a wait the session is not `Closed`, so one of `ChannelFail`'s two cases runs. -/
theorem channelErrorEndsWait : Obligations.ChannelErrorEndsWait := by
  intro s rest hinv hin hp
  have hstep : step s = .next (channelFail (s.takeInput rest)) := by
    rw [step_event s hin, runEvent, channelErrorEvent, if_neg (by exact hp)]
  rw [hstep]
  refine ⟨fun hopen => ?_, fun hnotopen => ?_⟩
  · rw [channelFail_open_eq _ (by exact hopen)]
    rfl
  · have hses : s.session = .connecting ∨ s.session = .closing := by
      have := hinv.session_of_wait hp
      cases hs : s.session <;> simp_all
    rw [channelFail_releases_eq _ (by exact hses)]
    rfl

end Sys2Proof.Machine
end

section
/-! PROOFS. The statements about frames that arrive in a wait (43_arq_controller.md R202 to R221): the frame that the
wait accepts runs one rule, the reject of the frame in flight runs `RetryOrFail`, and any other frame is noise. -/

namespace Sys2Proof.Machine

variable {s : State}

/-! ## A refused write ends the command -/

/-- In an open session, timer off: `FAILED` and `ChannelError` (R232 case Open). -/
theorem write_refused_open (f : Octets) (k : State → State) (h : s.answer = .error) (hses : s.session = .open_)
    (ht : s.timerArmed = false) : write f k s =
    { s with
      failed := true, phase := .none, rx := s.rx.searching
      stats := { s.stats with errors := bump s.params s.stats.errors }
      env := s.env.after 1 [.chanWrite f .error, .result (.err .channelError)] } := by
  rw [write_error_eq s f k h, channelFail_open_eq _ (by exact hses)]
  simp [State.cancelling, ht, env_after_after]

/-- In a session that opens or closes, timer off: the channel is released (R232 cases Connecting and Closing). -/
theorem write_refused_releases (f : Octets) (k : State → State) (h : s.answer = .error)
    (hses : s.session = .connecting ∨ s.session = .closing) (ht : s.timerArmed = false) : write f k s =
    { s with
      session := .closed, phase := .none, rx := s.rx.searching
      stats := { s.stats with errors := bump s.params s.stats.errors }
      env := s.env.after 2 [.chanWrite f .error, .chanClose (s.nthAnswer 1), .result (.err .channelError)] } := by
  rw [write_error_eq s f k h, channelFail_releases_eq _ (by exact hses)]
  simp [State.cancelling, ht, env_after_after]
  rfl

/-! ## The rules of accepted frames in one record each -/

theorem acceptSET_ok (h : s.answer = .ok) : acceptSET s =
    { s with
      session := .open_, phase := .none, rx := s.rx.searching
      stats := { s.stats with framesSent := bump s.params s.stats.framesSent }
      env := s.env.after 1 [.chanWrite (ctrl Config.A_TX Config.C_UA) .ok, .result (.ok .connection)] } := by
  rw [acceptSET, write_ok_eq s _ _ h]
  simp [State.rxInit, State.result, State.emit, Receiver.init, Receiver.searching, Env.after]

theorem acceptAck_eq : acceptAck s =
    { s with
      seq := !s.seq, phase := .none, retry := 0, timerArmed := false, rx := s.rx.searching
      env := s.env.after 0 [.timerCancel, .result (.ok (.bytesSent s.txPlen))] } := by
  simp [acceptAck, State.timerCancel, State.toggleSeq, State.rxInit, State.result, State.emit, Receiver.init,
    Receiver.searching, Env.after]

theorem acceptDISC_ok (h : s.answer = .ok) : acceptDISC s =
    { s with
      session := .closing, phase := .none, rx := s.rx.searching
      stats := { s.stats with framesSent := bump s.params s.stats.framesSent }
      env := s.env.after 1 [.chanWrite (ctrl s.params.aRX s.params.cDISC) .ok, .result (.err .disconnected)] } := by
  rw [acceptDISC, write_ok_eq s _ _ h]
  simp [State.rxInit, State.result, State.emit, Receiver.init, Receiver.searching, Env.after]

theorem acceptData_ok (h : s.answer = .ok) : acceptData s =
    { s with
      seq := !s.seq, phase := .none, rx := s.rx.searching
      stats := { s.stats with framesSent := bump s.params s.stats.framesSent }
      env := s.env.after 1 [.chanWrite (ctrl Config.A_TX (s.params.ackCode s.seq)) .ok,
        .result (.ok (.payload s.rx.value))] } := by
  rw [acceptData, write_ok_eq s _ _ h]
  simp [State.toggleSeq, State.rxInit, State.result, State.emit, Receiver.init, Receiver.searching, Env.after]

theorem duplicateData_ok (h : s.answer = .ok) : duplicateData s =
    { s with
      rx := s.rx.searching
      stats := { s.stats with framesSent := bump s.params s.stats.framesSent }
      env := s.env.after 1 [.chanWrite (ctrl Config.A_TX (s.params.ackCode (!s.seq))) .ok] } :=
  write_ok_eq s _ _ h

theorem mismatchData_ok (h : s.answer = .ok) : mismatchData s =
    { s with
      rx := s.rx.searching
      stats := { s.stats with
        framesSent := bump s.params s.stats.framesSent, errors := bump s.params s.stats.errors }
      env := s.env.after 1 [.chanWrite (ctrl Config.A_TX (s.params.rejCode s.seq)) .ok] } :=
  write_ok_eq s.countError _ _ h

/-- The state in which the disconnect echo is answered (R221). -/
def State.echoed (s : State) : State :=
  { s with retry := 0, timerArmed := false, env := s.env.after 0 [.timerCancel] }

theorem acceptEcho_eq : acceptEcho s = write (ctrl s.params.aRX Config.C_UA)
    (fun s =>
      let s := { s.chanClose with session := .closed }.rxInit
      s.result (.ok (s.closeValue s.report))) s.echoed := rfl

theorem acceptEcho_ok (h : s.answer = .ok) : acceptEcho s =
    { s with
      session := .closed, phase := .none, retry := 0, timerArmed := false, rx := s.rx.searching
      stats := { s.stats with framesSent := bump s.params s.stats.framesSent }
      env := s.env.after 2 [.timerCancel, .chanWrite (ctrl s.params.aRX Config.C_UA) .ok, .chanClose (s.nthAnswer 1),
        .result (.ok (if s.report then
          .snapshot { s.stats with framesSent := bump s.params s.stats.framesSent } else .unit))] } := by
  rw [acceptEcho_eq, write_ok_eq s.echoed _ _ h]
  simp [State.echoed, State.rxInit, State.result, State.emit, State.chanClose, State.chanAsk, State.closeValue,
    Receiver.init, Receiver.searching, Env.after, State.answer, State.nthAnswer]

theorem acceptEcho_refused (h : s.answer = .error) (hses : s.session = .closing) : acceptEcho s =
    { s with
      session := .closed, phase := .none, retry := 0, timerArmed := false, rx := s.rx.searching
      stats := { s.stats with errors := bump s.params s.stats.errors }
      env := s.env.after 2 [.timerCancel, .chanWrite (ctrl s.params.aRX Config.C_UA) .error,
        .chanClose (s.nthAnswer 1), .result (.err .channelError)] } := by
  rw [acceptEcho_eq, write_refused_releases (s := s.echoed) _ _ h (.inr hses) rfl]
  simp only [State.echoed, env_after_after]
  rfl

/-! ## Accepted control frames -/

/-- The state in which the rule of `Accepted` runs: the header is latched, the frame is closed. -/
def State.gotControl (a c : Octet) (s : State) : State :=
  { s with rx := { s.rx with state := .done, a := a, c := c, kind := .ctrl, dup := false } }

/-- The control frame that a wait accepts runs its rule of `Accepted`. -/
theorem deliver_accepted (h : Inv s) (hwf : s.params.wf) (hp : s.phase ≠ .none) (hb : s.rx.state ≠ .bcc1)
    (hpl : s.rx.state ≠ .payload) {a c : Octet} (ha : expA s.params s.phase = a)
    (hc : accept s.params s.phase s.seq c = some (.ctrl, false)) :
    deliver (ctrl a c) s = onOutcome .accepted (s.gotControl a c) := by
  subst ha
  exact deliver_controlFrame h hwf hp hb hpl hc

theorem Inv.session_of (h : Inv s) {phase : Phase} {session : Session} (hp : s.phase = phase)
    (hfits : ∀ ses, sessionFits phase ses = true → ses = session) : s.session = session :=
  hfits _ (hp ▸ h.session)

theorem Inv.timer_of (h : Inv s) {phase : Phase} (hp : s.phase = phase) : s.timerArmed = phase.timed.isSome := by
  rw [h.timer, hp]

/-- Settles O31. -/
theorem setAnsweredByUa : Obligations.SetAnsweredByUa := by
  intro s hinv hwf hp hbcc1
  have hexec : exec (.set Config.A_TX) s = .next (acceptSET (s.gotControl Config.A_TX Config.C_SET)) :=
    (deliver_accepted hinv hwf (by simp [hp]) hbcc1 (hinv.not_payload (by simp [hp])) (by rw [hp]; rfl)
      (by rw [hp]; rfl)).trans (onOutcome_acceptSET _ hp)
  have hses := hinv.session_of hp fun _ => beq_iff_eq.mp
  rw [hexec]
  refine ⟨fun h => ?_, fun h => ?_⟩
  · rw [acceptSET_ok (by exact h)]; rfl
  · rw [acceptSET, write_refused_releases _ _ (by exact h) (.inl (by exact hses)) (by exact hinv.timer_of hp)]; rfl

/-- The acknowledgement of the frame in flight (R212). -/
theorem exec_ack (hinv : Inv s) (hwf : s.params.wf) (hp : s.phase = .awaitAck) (hbcc1 : s.rx.state ≠ .bcc1) :
    deliver (ctrl Config.A_TX (s.params.ackCode s.seq)) s =
      .next (acceptAck (s.gotControl Config.A_TX (s.params.ackCode s.seq))) :=
  (deliver_accepted hinv hwf (by simp [hp]) hbcc1 (hinv.not_payload (by simp [hp])) (by rw [hp]; rfl)
    (by simp [hp, accept])).trans (onOutcome_acceptAck _ hp)

/-- Settles O32: RR1 carries `ackCode` of bit 0 and RR0 that of bit 1. -/
theorem rrCompletesSend : Obligations.RrCompletesSend := by
  intro s hinv hwf hp hbcc1
  have hack := exec_ack hinv hwf hp hbcc1
  rw [acceptAck_eq] at hack
  refine ⟨fun hseq => ?_, fun hseq => ?_⟩
  · have hcode : s.params.ackCode s.seq = s.params.cRR1 := by rw [hseq]; rfl
    rw [hcode] at hack
    exact hack
  · have hcode : s.params.ackCode s.seq = s.params.cRR0 := by rw [hseq]; rfl
    rw [hcode] at hack
    exact hack

/-- The disconnect is told apart from both information frames (00_scope.md R9 (a)). -/
theorem accept_cDISC {p : Params} (h : p.wf) (seq : Bool) :
    accept p .awaitData seq p.cDISC = some (.ctrl, false) := by
  obtain ⟨⟨-, -, h0, h1⟩, -⟩ := h
  cases seq <;> simp [accept, Params.cI, h0, h1]

/-- Settles O34. -/
theorem discEndsReceive : Obligations.DiscEndsReceive := by
  intro s hinv hwf hp hbcc1 hpayload
  have hexec : exec (.disc Config.A_TX) s = .next (acceptDISC (s.gotControl Config.A_TX s.params.cDISC)) :=
    (deliver_accepted hinv hwf (by simp [hp]) hbcc1 hpayload (by rw [hp]; rfl)
      (by rw [hp]; exact accept_cDISC hwf _)).trans (onOutcome_acceptDISC _ hp)
  have hses := hinv.session_of hp fun _ => beq_iff_eq.mp
  rw [hexec]
  refine ⟨fun h => ?_, fun h => ?_⟩
  · rw [acceptDISC_ok (by exact h)]; rfl
  · rw [acceptDISC, write_refused_open _ _ (by exact h) (by exact hses) (by exact hinv.timer_of hp)]; rfl

/-- Settles O38. -/
theorem discEchoCompletesClose : Obligations.DiscEchoCompletesClose := by
  intro s hinv hwf hp hbcc1
  have hexec : exec (.disc s.params.aRX) s = .next (acceptEcho (s.gotControl s.params.aRX s.params.cDISC)) :=
    (deliver_accepted hinv hwf (by simp [hp]) hbcc1 (hinv.not_payload (by simp [hp])) (by rw [hp]; rfl)
      (by simp [hp, accept])).trans (onOutcome_acceptEcho _ hp)
  have hses := hinv.session_of hp fun _ => beq_iff_eq.mp
  rw [hexec]
  refine ⟨fun h => ?_, fun h => ?_⟩
  · rw [acceptEcho_ok (by exact h)]; rfl
  · rw [acceptEcho_refused (by exact h) (by exact hses)]; rfl

/-! ## Information frames -/

/-- The state in which the rule of an information frame runs: its payload and checksum2 are in the accumulator. -/
def State.gotInfo (c : Octet) (dup : Bool) (payload : Octets) (chk : Octet) (s : State) : State :=
  { s with rx := { s.rx with
    state := .done, a := Config.A_TX, c := c, kind := .info, dup := dup, escPend := false
    acc := payload ++ chk :: s.rx.acc.drop (payload.length + 1), len := payload.length } }

theorem gotInfo_value (c : Octet) (dup : Bool) (payload : Octets) (chk : Octet) :
    (s.gotInfo c dup payload chk).rx.value = payload := by
  simp [State.gotInfo, Receiver.value]

/-- An information frame whose bit is the expected one (`dup` false) or the other. -/
theorem deliver_info (hinv : Inv s) (hwf : s.params.wf) (hp : s.phase = .awaitData) (hb : s.rx.state ≠ .bcc1)
    (hpl : s.rx.state ≠ .payload) {payload : Octets} (hfits : payload.length ≤ s.params.maxPayload) (dup : Bool)
    (chk : Octet) :
    deliver ([Config.FLAG, Config.A_TX, s.params.cI (s.seq ^^ dup), Config.A_TX ^^^ s.params.cI (s.seq ^^ dup)] ++
        stuff (payload ++ [chk]) ++ [Config.FLAG]) s =
      onOutcome (if bcc payload ≠ chk then .bcc2Mismatch else if dup then .duplicate else .dataAccepted)
        (s.gotInfo (s.params.cI (s.seq ^^ dup)) dup payload chk) :=
  deliver_informationFrame hinv hwf hp hb hpl (by rw [hp]; exact accept_cI hwf s.seq dup) hfits chk

theorem exec_info (bit : Bool) (a : Octet) (payload : Octets) (s : State) :
    exec (if bit then .i1 a payload else .i0 a payload) s = deliver (infoFrame a (s.params.cI bit) payload) s := by
  cases bit <;> rfl

theorem deliver_expected (hinv : Inv s) (hwf : s.params.wf) (hp : s.phase = .awaitData) (hb : s.rx.state ≠ .bcc1)
    (hpl : s.rx.state ≠ .payload) {payload : Octets} (hfits : payload.length ≤ s.params.maxPayload) :
    deliver (infoFrame Config.A_TX (s.params.cI s.seq) payload) s =
      .next (acceptData (s.gotInfo (s.params.cI s.seq) false payload (bcc payload))) := by
  have hframe := deliver_info hinv hwf hp hb hpl hfits false (bcc payload)
  simp only [Bool.xor_false, ne_eq, not_true, if_false, Bool.false_eq_true] at hframe
  exact hframe.trans (onOutcome_acceptData _ hp)

theorem deliver_duplicate (hinv : Inv s) (hwf : s.params.wf) (hp : s.phase = .awaitData) (hb : s.rx.state ≠ .bcc1)
    (hpl : s.rx.state ≠ .payload) {payload : Octets} (hfits : payload.length ≤ s.params.maxPayload) :
    deliver (infoFrame Config.A_TX (s.params.cI (!s.seq)) payload) s =
      .next (duplicateData (s.gotInfo (s.params.cI (!s.seq)) true payload (bcc payload))) := by
  have hframe := deliver_info hinv hwf hp hb hpl hfits true (bcc payload)
  simp only [Bool.xor_true, ne_eq, not_true, if_false, if_true] at hframe
  exact hframe.trans (onOutcome_duplicateData _ hp)

/-- Settles O35. -/
theorem expectedInfoFrameDelivered : Obligations.ExpectedInfoFrameDelivered := by
  intro s payload hinv hwf hp hb hpl hfits
  have hses := hinv.session_of hp fun _ => beq_iff_eq.mp
  intro i rx ack
  have hexec : exec i s = .next (acceptData (s.gotInfo (s.params.cI s.seq) false payload (bcc payload))) :=
    (exec_info s.seq Config.A_TX payload s).trans (deliver_expected hinv hwf hp hb hpl hfits)
  rw [hexec]
  refine ⟨fun h => ?_, fun h => ?_⟩
  · rw [acceptData_ok (by exact h), gotInfo_value]; rfl
  · rw [acceptData, write_refused_open _ _ (by exact h) (by exact hses) (by exact hinv.timer_of hp)]; rfl

/-- Settles O36. -/
theorem duplicateInfoFrameAcknowledgedOnly : Obligations.DuplicateInfoFrameAcknowledgedOnly := by
  intro s payload hinv hwf hp hb hpl hfits
  have hses := hinv.session_of hp fun _ => beq_iff_eq.mp
  intro i rx ack
  have hother : i = if !s.seq then .i1 Config.A_TX payload else .i0 Config.A_TX payload := by
    change (if s.seq then _ else _) = _
    cases s.seq <;> rfl
  have hexec : exec i s = .next (duplicateData (s.gotInfo (s.params.cI (!s.seq)) true payload (bcc payload))) := by
    rw [hother, exec_info, deliver_duplicate hinv hwf hp hb hpl hfits]
  rw [hexec]
  refine ⟨fun h => ?_, fun h => ?_⟩
  · rw [duplicateData_ok (by exact h)]; rfl
  · rw [duplicateData, write_refused_open _ _ (by exact h) (by exact hses) (by exact hinv.timer_of hp)]; rfl

/-- Settles O37: the checksum is tested before the duplicate bit, so either bit is rejected. -/
theorem damagedInfoFrameRejected : Obligations.DamagedInfoFrameRejected := by
  intro s bit payload chk hinv hwf hp hb hpl hfits hchk
  have hframe := deliver_info hinv hwf hp hb hpl hfits (s.seq ^^ bit) chk
  have hbit : (s.seq ^^ (s.seq ^^ bit)) = bit := by simp
  rw [hbit, if_pos hchk, onOutcome_mismatchData _ (by exact hp)] at hframe
  have hses := hinv.session_of hp fun _ => beq_iff_eq.mp
  intro c damaged rx rej
  have hexec : deliver damaged s = .next (mismatchData (s.gotInfo c (s.seq ^^ bit) payload chk)) := hframe
  rw [hexec]
  refine ⟨fun h => ?_, fun h => ?_⟩
  · rw [mismatchData_ok (by exact h)]; rfl
  · rw [mismatchData, write_refused_open _ _ (by exact h) (by exact hses) (by exact hinv.timer_of hp)]; rfl

end Sys2Proof.Machine
end

section
/-! PROOFS. The two statements about frames that a wait does not accept: the reject of the frame in flight
(43_arq_controller.md R213), and noise (R202, R236). -/

namespace Sys2Proof.Machine

/-! ## Runs of octets that report nothing -/

section
variable {p : Params} {phase : Phase} {seq : Bool} {r r' r'' : Receiver} {xs ys : Octets}

/-- The octets leave the wait going and the receiver in `r'`. -/
def QuietRun (p : Params) (phase : Phase) (seq : Bool) (xs : Octets) (r r' : Receiver) : Prop :=
  (∀ o ∈ (rxRun p phase seq xs r).1, o.quiet) ∧ (rxRun p phase seq xs r).2 = r'

theorem QuietRun.append (h : QuietRun p phase seq xs r r') (h' : QuietRun p phase seq ys r' r'') :
    QuietRun p phase seq (xs ++ ys) r r'' := by
  obtain ⟨hq, rfl⟩ := h
  rw [QuietRun, rxRun_append]
  exact ⟨fun o ho => (List.mem_append.mp ho).elim (hq o) (h'.1 o), h'.2⟩

theorem QuietRun.single {b : Octet} {o : RxOutcome} (h : rxStep p phase seq b r = (o, r')) (hq : o.quiet) :
    QuietRun p phase seq [b] r r' := by
  simp [QuietRun, rxRun, h, hq]

/-- Octets other than `FLAG` between frames (41_ctrl_receiver.md R153). -/
theorem quietRun_idle (hs : r.state = .idle) (hx : Config.FLAG ∉ xs) : QuietRun p phase seq xs r r := by
  induction xs with
  | nil => exact ⟨by simp [rxRun], rfl⟩
  | cons x xs ih =>
    rw [List.mem_cons, not_or] at hx
    have hstep : rxStep p phase seq x r = (.needMore, r) := by rw [rxStep_idle hs, rxIdle, if_neg (Ne.symm hx.1)]
    exact (QuietRun.single hstep (.inl rfl)).append (ih hx.2)

theorem quietRun_idle_flag (hs : r.state = .idle) (hx : Config.FLAG ∉ xs) :
    QuietRun p phase seq (xs ++ [Config.FLAG]) r { r with state := .flag } := by
  refine (quietRun_idle hs hx).append (.single (o := .needMore) ?_ (.inl rfl))
  rw [rxStep_idle hs, rxIdle, if_pos rfl]

theorem quietRun_openingFlag (hwf : p.wf) (hl : Latched p phase seq r) (hh : r.hunting) :
    QuietRun p phase seq [Config.FLAG] r { r with state := .flag } := by
  obtain ⟨o, hq, ho⟩ := rxStep_openingFlag hwf hl hh
  exact .single ho hq

/-- The flag and the expected address, from any hunting state. -/
theorem quietRun_address (hwf : p.wf) (hl : Latched p phase seq r) (hh : r.hunting) :
    QuietRun p phase seq [Config.FLAG, expA p phase] r { r with a := expA p phase, state := .addr } :=
  (quietRun_openingFlag hwf hl hh).append (.single (rxStep_address rfl) (.inl rfl))

end

variable {s : State}

theorem Inv.hunting (h : Inv s) (hb : s.rx.state ≠ .bcc1) (hpl : s.rx.state ≠ .payload) : s.rx.hunting :=
  ⟨hb, hpl, h.notDone⟩

/-- A quiet run moves the receiver only. -/
theorem deliver_quietRun {xs : Octets} {r : Receiver} (hp : s.phase ≠ .none)
    (h : QuietRun s.params s.phase s.seq xs s.rx r) (ys : Octets) :
    deliver (xs ++ ys) s = deliver ys { s with rx := r } := by
  rw [deliver_quiet s xs ys hp h.1, h.2]

theorem deliver_quietRun_all {xs : Octets} {r : Receiver} (hp : s.phase ≠ .none)
    (h : QuietRun s.params s.phase s.seq xs s.rx r) : deliver xs s = .next { s with rx := r } := by
  rw [← List.append_nil xs, deliver_quietRun hp h, deliver_nil]

/-! ## The reject of the frame in flight (43_arq_controller.md R213) -/

section
variable {p : Params}

/-- The reject code of the bit in flight is not its acknowledgement (00_scope.md R9 (a)). -/
theorem accept_rejCode (h : p.wf) (seq : Bool) : accept p .awaitAck seq (p.rejCode seq) = none := by
  have hnodup : p.controlCodes.Nodup := h.1.1
  have hdiff : p.rejCode seq ≠ p.ackCode seq := by
    cases seq <;> simp [Params.rejCode, Params.ackCode, Params.cREJ, Params.cRR] <;>
      simp_all [Params.controlCodes, eq_comm]
  exact if_neg hdiff

theorem rejCode_checksum_ne_flag (h : p.wf) (seq : Bool) : Config.A_TX ^^^ p.rejCode seq ≠ Config.FLAG :=
  wf_pair_ne_flag h (by cases seq <;> simp [Params.pairs, Params.rejCode, Params.cREJ])

end

/-- The state in which the retry budget is tested: the error and the recovery counted, the timer cancelled. -/
def State.rejecting (s : State) : State :=
  { s with
    retry := s.retry + 1, timerArmed := false, stats := { s.stats with errors := bump s.params s.stats.errors }
    env := s.env.after 0 [.timerCancel] }

theorem cancelIfArmed_rejecting (ht : s.timerArmed = true) :
    ({ s.countError with retry := s.countError.retry + 1 } : State).cancelIfArmed = s.rejecting := by
  rw [cancelIfArmed_eq_after]
  simp [State.cancelling, ht, State.rejecting, State.countError]

/-- The budget lasts and the resend leaves (R226). -/
theorem rejectedAck_resent (ht : s.timerArmed = true) (h : s.retry + 1 < s.maxRetx) (hok : s.answer = .ok) :
    rejectedAck s =
    { s with
      retry := s.retry + 1, rx := s.rx.searching
      stats := { s.stats with
        errors := bump s.params s.stats.errors, framesSent := bump s.params s.stats.framesSent
        retransmissions := bump s.params s.stats.retransmissions }
      env := s.env.after 1 [.timerCancel, .chanWrite s.txFrame .ok, .timerArm s.timeoutS] } := by
  rw [rejectedAck, retryOrFail_resends s.countError .ack h, cancelIfArmed_rejecting ht, resend_ok s.rejecting hok, ht]
  simp only [State.rejecting, env_after_after]
  rfl

/-- The budget lasts and the resend is refused (R225, R232). -/
theorem rejectedAck_refused (ht : s.timerArmed = true) (h : s.retry + 1 < s.maxRetx) (herror : s.answer = .error)
    (hses : s.session = .open_) : rejectedAck s =
    { s with
      retry := s.retry + 1, timerArmed := false, failed := true, phase := .none, rx := s.rx.searching
      stats := { s.stats with errors := bump s.params (bump s.params s.stats.errors) }
      env := s.env.after 1 [.timerCancel, .chanWrite s.txFrame .error, .result (.err .channelError)] } := by
  rw [rejectedAck, retryOrFail_resends s.countError .ack h, cancelIfArmed_rejecting ht, resend]
  rw [write_refused_open (s := s.rejecting) _ _ herror hses rfl]
  simp only [State.rejecting, env_after_after]
  rfl

/-- The budget is spent (R227). -/
theorem rejectedAck_spent (ht : s.timerArmed = true) (h : s.maxRetx ≤ s.retry + 1) : rejectedAck s =
    { s with
      retry := s.retry + 1, timerArmed := false, failed := true, phase := .none, rx := s.rx.searching
      stats := { s.stats with errors := bump s.params (bump s.params s.stats.errors) }
      env := s.env.after 0 [.timerCancel, .result (.err .maxRetransmissionsExceeded)] } := by
  rw [rejectedAck, retryOrFail_spent s.countError .ack h, cancelIfArmed_rejecting ht, exhausted_ack]
  simp only [State.rejecting, env_after_after]
  rfl

/-- The state in which the rule of `Rejected` runs: the reject's address is latched (41_ctrl_receiver.md R155). -/
def State.gotReject (s : State) : State := { s with rx := { s.rx with a := Config.A_TX, state := .idle } }

/-- The reject of the frame in flight: its rule runs at the control octet, and two octets are left (D10). -/
theorem deliver_reject (hinv : Inv s) (hwf : s.params.wf) (hp : s.phase = .awaitAck) (hb : s.rx.state ≠ .bcc1) :
    deliver (ctrl Config.A_TX (s.params.rejCode s.seq)) s =
      deliver [Config.A_TX ^^^ s.params.rejCode s.seq, Config.FLAG]
        (rejectedAck s.gotReject) := by
  have haddress := quietRun_address hwf hinv.latched (hinv.hunting hb (hinv.not_payload (by simp [hp])))
  have ha : expA s.params s.phase = Config.A_TX := by rw [hp]; rfl
  rw [ha] at haddress
  have hcode := accept_rejCode hwf s.seq
  have hrejects : rejects s.params .awaitAck s.seq (s.params.rejCode s.seq) = true := beq_self_eq_true _
  refine (deliver_quietRun (by simp [hp]) haddress _).trans (deliver_cons_next _ ?_)
  have hstep : rxStep s.params s.phase s.seq (s.params.rejCode s.seq) { s.rx with a := Config.A_TX, state := .addr } =
      (.rejected, { s.rx with a := Config.A_TX, state := .idle }) := by
    simp [hp, rxStep_addr, rxAddr, hcode, hrejects]
  rw [rxByte_read _ _ (by simp [hp])]
  simp only [hstep]
  exact onOutcome_rejectedAck s.gotReject hp

/-- Settles O33: after the rule the two octets are held when the SEND has ended, and noise and a flag when it goes
on. -/
theorem rejResendsOrFails : Obligations.RejResendsOrFails := by
  intro s i hinv hwf hp hb hi rest
  have hexec : exec i s = deliver (ctrl Config.A_TX (s.params.rejCode s.seq)) s := by
    rcases hi with ⟨hseq, rfl⟩ | ⟨hseq, rfl⟩ <;> rw [hseq] <;> rfl
  have harmed : s.timerArmed = true := hinv.timer_of hp
  have hses := hinv.session_of hp fun _ => beq_iff_eq.mp
  rw [hexec, deliver_reject hinv hwf hp hb]
  refine ⟨fun hleft hok => ?_, fun hleft herror => ?_, fun hspent => ?_⟩
  · have hnoise := quietRun_idle_flag (p := s.params) (phase := s.phase) (seq := s.seq) (r := s.gotReject.rx.searching)
      (xs := [Config.A_TX ^^^ s.params.rejCode s.seq]) rfl (by simpa using Ne.symm (rejCode_checksum_ne_flag hwf s.seq))
    rw [rejectedAck_resent (s := s.gotReject) harmed hleft hok]
    rw [deliver_quietRun_all (by exact hp ▸ nofun) (by exact hnoise)]
    rfl
  · rw [rejectedAck_refused (s := s.gotReject) harmed hleft herror hses, deliver_held _ _ rfl]
    rfl
  · rw [rejectedAck_spent (s := s.gotReject) harmed hspent, deliver_held _ _ rfl]
    rfl

/-! ## Noise (43_arq_controller.md R202, R236) -/

section
variable {p : Params} {phase : Phase} {seq : Bool} {r : Receiver} {a c : Octet}

theorem pairs_ne_flag (h : p.wf) (hac : (a, c) ∈ p.pairs) : a ≠ Config.FLAG ∧ c ≠ Config.FLAG := by
  have hx : ∀ b ∈ p.controlCodes, b ≠ Config.FLAG := h.2.2.2.1
  simp only [Params.controlCodes, List.forall_mem_cons] at hx
  obtain ⟨hset, hua, hdisc, hrr0, hrr1, hrej0, hrej1, -⟩ := hx
  have hATX : Config.A_TX ≠ Config.FLAG := by decide
  have hI0 : Config.C_I0 ≠ Config.FLAG := by decide
  have haRX : p.aRX ≠ Config.FLAG := h.2.1
  have hI1 : p.cI1 ≠ Config.FLAG := h.2.2.1
  simp only [Params.pairs, List.mem_cons, Prod.mk.injEq, List.not_mem_nil, or_false] at hac
  rcases hac with ⟨rfl, rfl⟩ | ⟨rfl, rfl⟩ | ⟨rfl, rfl⟩ | ⟨rfl, rfl⟩ | ⟨rfl, rfl⟩ | ⟨rfl, rfl⟩ | ⟨rfl, rfl⟩ |
    ⟨rfl, rfl⟩ | ⟨rfl, rfl⟩ | ⟨rfl, rfl⟩ | ⟨rfl, rfl⟩ <;> exact ⟨‹_›, ‹_›⟩

/-- A well-formed frame is a flag, its header, octets without a flag, and a flag (30_encoding.md R81, R82, R87). -/
theorem encode_frame (h : p.wf) {i : Instr} (hi : i.wf p = true) (hh : frameHeader p i = some (a, c)) :
    (a, c) ∈ p.pairs ∧ ∃ tail, Config.FLAG ∉ tail ∧
      encode p i = .wire (Config.FLAG :: a :: c :: (tail ++ [Config.FLAG])) := by
  have control (hac : (a, c) ∈ p.pairs) : Config.FLAG ∉ [a ^^^ c] := by
    simpa using Ne.symm (wf_pair_ne_flag h hac)
  have info (hac : (a, c) ∈ p.pairs) (payload : Octets) : Config.FLAG ∉ (a ^^^ c) :: dataRegion payload := by
    rw [List.mem_cons, not_or]
    exact ⟨Ne.symm (wf_pair_ne_flag h hac), flag_notMem_stuff _⟩
  cases i <;> cases hh <;> simp only [Instr.wf, Bool.and_eq_true, decide_eq_true_eq] at hi
  case i0 payload => exact ⟨hi.1, _, info hi.1 payload, by simp [encode, infoFrame, Params.cI]⟩
  case i1 payload => exact ⟨hi.1, _, info hi.1 payload, by simp [encode, infoFrame, Params.cI]⟩
  all_goals exact ⟨hi, _, control hi, rfl⟩

/-- A header that the wait does not accept sends the receiver back to `RX_IDLE` (R154, R155). -/
theorem quietRun_unacceptableHeader (hwf : p.wf) (hl : Latched p phase seq r) (hh : r.hunting) (ha : a ≠ Config.FLAG)
    (hc : c ≠ Config.FLAG)
    (hno : a ≠ expA p phase ∨ (accept p phase seq c = none ∧ rejects p phase seq c = false)) :
    ∃ r', QuietRun p phase seq [Config.FLAG, a, c] r r' ∧ r'.state = .idle ∧ r'.len = r.len := by
  by_cases haddr : a = expA p phase
  · obtain ⟨haccept, hrejects⟩ := hno.resolve_left (not_not.mpr haddr)
    subst haddr
    have hstep : rxStep p phase seq c { r with a := expA p phase, state := .addr } =
        (.resync, { r with a := expA p phase, state := .idle }) := by
      simp [rxStep_addr, rxAddr, haccept, hrejects, hc]
    exact ⟨_, (quietRun_address hwf hl hh).append (.single hstep (.inr rfl)), rfl, rfl⟩
  · have hstep : rxStep p phase seq a { r with state := .flag } = (.resync, { r with state := .idle }) := by
      simp [rxStep_flag, rxFlag, haddr, ha]
    have hrest := quietRun_idle (p := p) (phase := phase) (seq := seq) (r := { r with state := .idle }) (xs := [c]) rfl
      (by simpa using Ne.symm hc)
    exact ⟨_, ((quietRun_openingFlag hwf hl hh).append (.single hstep (.inr rfl))).append hrest, rfl, rfl⟩

end

/-- Settles O39: such a frame is a quiet run that ends in its closing flag. -/
theorem unacceptableFrameIsNoise : Obligations.UnacceptableFrameIsNoise := by
  refine ⟨fun s b hp => rxByte_quiet s hp rfl, ?_⟩
  intro s i a c hinv hwf hp hb hpl hi hh hno
  obtain ⟨hac, tail, htail, hencode⟩ := encode_frame hwf hi hh
  obtain ⟨ha, hc⟩ := pairs_ne_flag hwf hac
  obtain ⟨r, hheader, hidle, hlen⟩ :=
    quietRun_unacceptableHeader hwf hinv.latched (hinv.hunting hb hpl) ha hc hno
  have hframe := hheader.append (quietRun_idle_flag hidle htail)
  rw [exec_frame hencode]
  exact ⟨_, deliver_quietRun_all hp hframe, rfl, hlen.trans (hinv.len_zero hpl)⟩

end Sys2Proof.Machine
end

section
/-! PROOFS. What every step does, whatever the event: the actions it appends, the counters it moves, the result it
emits. Said once for each operation and composed; the whole-machine statements (10_state.md R22 to R28 and R44,
20_memory.md R71, 30_encoding.md R98) are read off it. -/

namespace Sys2Proof.Machine

/-! ## Counters that grow (10_state.md R44) -/

/-- A counter went from `m` to `n` without falling and without passing the width of a counter. -/
structure Grows (p : Params) (m n : Nat) : Prop where
  le : m ≤ n
  bound : ∀ w, p.statW = some w → m < 2 ^ w → n < 2 ^ w

theorem Grows.refl (p : Params) (n : Nat) : Grows p n n := ⟨Nat.le_refl n, fun _ _ h => h⟩

theorem Grows.trans {p : Params} {l m n : Nat} (h : Grows p l m) (h' : Grows p m n) : Grows p l n :=
  ⟨Nat.le_trans h.le h'.le, fun w hw hl => h'.bound w hw (h.bound w hw hl)⟩

theorem grows_bump (p : Params) (n : Nat) : Grows p n (bump p n) := by
  unfold bump
  cases hw : p.statW with
  | none => exact ⟨Nat.le_succ n, by simp [hw]⟩
  | some w =>
    refine ⟨?_, fun v hv hn => ?_⟩ <;> simp only
    · split <;> omega
    · cases hw.symm.trans hv
      split <;> omega

structure StatsGrow (p : Params) (a b : Stats) : Prop where
  framesSent : Grows p a.framesSent b.framesSent
  retransmissions : Grows p a.retransmissions b.retransmissions
  timeouts : Grows p a.timeouts b.timeouts
  errors : Grows p a.errors b.errors

section
variable {p : Params} {a b c : Stats}

theorem StatsGrow.refl : StatsGrow p a a := ⟨.refl .., .refl .., .refl .., .refl ..⟩

theorem StatsGrow.trans (h : StatsGrow p a b) (h' : StatsGrow p b c) : StatsGrow p a c :=
  ⟨h.framesSent.trans h'.framesSent, h.retransmissions.trans h'.retransmissions, h.timeouts.trans h'.timeouts,
    h.errors.trans h'.errors⟩

theorem statsGrow_sent : StatsGrow p a { a with framesSent := bump p a.framesSent } :=
  ⟨grows_bump .., .refl .., .refl .., .refl ..⟩

theorem statsGrow_retransmission : StatsGrow p a { a with retransmissions := bump p a.retransmissions } :=
  ⟨.refl .., grows_bump .., .refl .., .refl ..⟩

theorem statsGrow_timeout : StatsGrow p a { a with timeouts := bump p a.timeouts } :=
  ⟨.refl .., .refl .., grows_bump .., .refl ..⟩

theorem statsGrow_error : StatsGrow p a { a with errors := bump p a.errors } :=
  ⟨.refl .., .refl .., .refl .., grows_bump ..⟩

end

/-! ## Effects -/

/-- From `s` to `t` the actions `acts` were emitted, each channel action taking one answer (entry 4). -/
structure Emits (s t : State) (acts : List Action) : Prop where
  actions : t.env.actions = s.env.actions ++ acts
  asks : t.env.asks = s.env.asks + acts.countP isChannelAction
  answers : t.env.answers = s.env.answers.drop (acts.countP isChannelAction)

/-- The registers that only an OPEN and a reset write (10_state.md R22 to R24), and the parameters. -/
abbrev State.configuration (s : State) : Params × Role × Nat × Nat := (s.params, s.role, s.maxRetx, s.timeoutS)

/-- What everything but an OPEN and a reset does: it emits, it counts, and it keeps the configuration. -/
structure Effect (s t : State) (acts : List Action) : Prop where
  emits : Emits s t acts
  keeps : t.configuration = s.configuration
  stats : StatsGrow s.params s.stats t.stats

section
variable {s t u : State} {acts acts' : List Action}

theorem Emits.trans (h : Emits s t acts) (h' : Emits t u acts') : Emits s u (acts ++ acts') where
  actions := by rw [h'.actions, h.actions, List.append_assoc]
  asks := by rw [h'.asks, h.asks, List.countP_append, Nat.add_assoc]
  answers := by rw [h'.answers, h.answers, List.countP_append, List.drop_drop]

theorem Emits.of_after {n : Nat} (h : t.env = s.env.after n acts) (hn : acts.countP isChannelAction = n) :
    Emits s t acts := by
  subst hn
  constructor <;> rw [h] <;> rfl

theorem Effect.params (h : Effect s t acts) : t.params = s.params := congrArg Prod.fst h.keeps

theorem Effect.trans (h : Effect s t acts) (h' : Effect t u acts') : Effect s u (acts ++ acts') :=
  ⟨h.emits.trans h'.emits, h'.keeps.trans h.keeps, h.stats.trans (h.params ▸ h'.stats)⟩

/-- What a rule's record says of its effect, once the actions are named. The premises are true by definition wherever
the next state is such a record. -/
theorem Effect.of_after (acts : List Action) {n : Nat} (hstats : StatsGrow s.params s.stats t.stats)
    (h : t.env = s.env.after n acts := by rfl) (hn : acts.countP isChannelAction = n := by rfl)
    (hkeeps : t.configuration = s.configuration := by rfl) : Effect s t acts :=
  ⟨.of_after h hn, hkeeps, hstats⟩

/-- A change that emits and counts nothing, and keeps the configuration. -/
theorem Effect.silent (hactions : t.env.actions = s.env.actions := by rfl) (hasks : t.env.asks = s.env.asks := by rfl)
    (hanswers : t.env.answers = s.env.answers := by rfl) (hstats : t.stats = s.stats := by rfl)
    (hkeeps : t.configuration = s.configuration := by rfl) : Effect s t [] :=
  ⟨⟨by simpa using hactions, hasks, hanswers⟩, hkeeps, hstats ▸ .refl⟩

end

theorem resultsOf_append (xs ys : List Action) : resultsOf (xs ++ ys) = resultsOf xs ++ resultsOf ys :=
  List.filterMap_append ..

theorem resultsOf_cancelling (s : State) : resultsOf s.cancelling = [] := by
  unfold State.cancelling; split <;> rfl

theorem countP_cancelling (s : State) : s.cancelling.countP isChannelAction = 0 := by
  unfold State.cancelling; split <;> rfl

/-! ## What a rule does in a wait -/

/-- The successes that toggle `SEQ` (10_state.md R28): an acknowledged SEND and a delivered payload. -/
def Earned (s : State) (r : Result) : Prop :=
  (s.phase = .awaitAck ∧ r = .ok (.bytesSent s.txPlen)) ∨ (s.phase = .awaitData ∧ ∃ payload, r = .ok (.payload payload))

/-- No result so far, and `SEQ` as it was. -/
structure Quiet (s t : State) : Prop where
  seq : t.seq = s.seq
  effect : ∃ acts, Effect s t acts ∧ resultsOf acts = []

/-- The wait goes on. -/
structure GoesOn (s t : State) : Prop extends Quiet s t where
  phase : t.phase = s.phase
  txPlen : t.txPlen = s.txPlen

/-- The command ends with one result, `SEQ` as it was. -/
structure Stops (s t : State) : Prop where
  phase : t.phase = .none
  seq : t.seq = s.seq
  effect : ∃ acts r, Effect s t acts ∧ resultsOf acts = [r]

/-- The command ends with one result; `SEQ` is toggled only when the result earns it. -/
structure Ends (s t : State) : Prop where
  phase : t.phase = .none
  effect : ∃ acts r, Effect s t acts ∧ resultsOf acts = [r] ∧ (t.seq = s.seq ∨ Earned s r)

/-- Every rule that runs in a wait lets it go on or ends the command. -/
def Turn (s t : State) : Prop := GoesOn s t ∨ Ends s t

section
variable {s t u : State}

theorem Quiet.of_effect {acts : List Action} (h : Effect s t acts) (hno : resultsOf acts = [] := by rfl)
    (hseq : t.seq = s.seq := by rfl) : Quiet s t := ⟨hseq, acts, h, hno⟩

theorem GoesOn.of_effect {acts : List Action} (h : Effect s t acts) (hno : resultsOf acts = [] := by rfl)
    (hp : t.phase = s.phase := by rfl) (hseq : t.seq = s.seq := by rfl) (hlen : t.txPlen = s.txPlen := by rfl) :
    GoesOn s t := ⟨.of_effect h hno hseq, hp, hlen⟩

theorem GoesOn.refl (s : State) : GoesOn s s := .of_effect .silent

theorem Quiet.trans (h : Quiet s t) (h' : Quiet t u) : Quiet s u := by
  obtain ⟨acts, heffect, hresults⟩ := h.effect
  obtain ⟨acts', heffect', hresults'⟩ := h'.effect
  exact ⟨h'.seq.trans h.seq, _, heffect.trans heffect', by rw [resultsOf_append, hresults, hresults']; rfl⟩

theorem Quiet.stops (h : Quiet s t) (h' : Stops t u) : Stops s u := by
  obtain ⟨acts, heffect, hresults⟩ := h.effect
  obtain ⟨acts', r, heffect', hresults'⟩ := h'.effect
  exact ⟨h'.phase, h'.seq.trans h.seq, _, r, heffect.trans heffect',
    by rw [resultsOf_append, hresults, hresults']; rfl⟩

theorem Stops.ends (h : Stops s t) : Ends s t := by
  obtain ⟨acts, r, heffect, hresults⟩ := h.effect
  exact ⟨h.phase, acts, r, heffect, hresults, .inl h.seq⟩

theorem GoesOn.trans (h : GoesOn s t) (h' : GoesOn t u) : GoesOn s u :=
  ⟨h.toQuiet.trans h'.toQuiet, h'.phase.trans h.phase, h'.txPlen.trans h.txPlen⟩

theorem GoesOn.ends (h : GoesOn s t) (h' : Ends t u) : Ends s u := by
  obtain ⟨acts, heffect, hresults⟩ := h.effect
  obtain ⟨acts', r, heffect', hresults', hseq⟩ := h'.effect
  refine ⟨h'.phase, _, r, heffect.trans heffect', by rw [resultsOf_append, hresults, hresults']; rfl, ?_⟩
  simpa only [Earned, h.phase, h.seq, h.txPlen] using hseq

theorem GoesOn.turn (h : GoesOn s t) (h' : Turn t u) : Turn s u := h'.imp h.trans h.ends

theorem result_effect (s : State) (r : Result) : Effect s (s.result r) [.result r] := .of_after (n := 0) _ .refl

/-- A rule's last step is its result. -/
theorem stops_result {acts : List Action} (r : Result) (h : Effect s t acts) (hno : resultsOf acts = [] := by rfl)
    (hseq : t.seq = s.seq := by rfl) : Stops s (t.result r) :=
  ⟨rfl, hseq, _, r, h.trans (result_effect t r), by rw [resultsOf_append, hno]; rfl⟩

theorem turn_result {acts : List Action} (r : Result) (h : Effect s t acts) (hno : resultsOf acts = [] := by rfl)
    (hseq : t.seq = s.seq := by rfl) : Turn s (t.result r) := .inr (stops_result r h hno hseq).ends

/-- The same of a result that earns a new `SEQ`. -/
theorem turn_earned {acts : List Action} {r : Result} (h : Effect s t acts) (hr : Earned s r)
    (hno : resultsOf acts = [] := by rfl) : Turn s (t.result r) :=
  .inr ⟨rfl, _, r, h.trans (result_effect t r), by rw [resultsOf_append, hno]; rfl, .inr hr⟩

/-! ## The shared procedures -/

theorem failing_effect (s : State) : Effect s (failing s) s.cancelling := by
  rw [failing_eq]
  exact .of_after _ statsGrow_error rfl (countP_cancelling s)

theorem channelFail_stops (s : State) : Stops s (channelFail s) := by
  have hno := resultsOf_cancelling s
  have hreleases : s.session = .connecting ∨ s.session = .closing → Stops s (channelFail s) := by
    intro h
    rw [channelFail_releases s h]
    exact stops_result _ ((failing_effect s).trans (.of_after (n := 1) [.chanClose (failing s).answer] .refl))
      (by rw [resultsOf_append, hno]; rfl) (failing_seq s)
  cases h : s.session with
  | closed =>
    rw [channelFail_closed s h]
    exact stops_result _ (failing_effect s) hno (failing_seq s)
  | open_ =>
    rw [channelFail_open s h]
    exact stops_result _ ((failing_effect s).trans .silent) (by rw [resultsOf_append, hno]; rfl) (failing_seq s)
  | connecting => exact hreleases (.inl h)
  | closing => exact hreleases (.inr h)

theorem write_refused_goesOn (f : Octets) (s : State) :
    GoesOn s { s with env := s.env.after 1 [.chanWrite f .error] } := .of_effect (.of_after _ .refl)

/-- A write, when the rest of its rule does one or the other from any state of the same wait. -/
theorem write_turn (f : Octets) {k : State → State} (hk : ∀ u : State, u.phase = s.phase → Turn u (k u)) :
    Turn s (write f k s) := by
  cases h : s.answer with
  | ok =>
    rw [write_ok_eq s f k h]
    refine GoesOn.turn (.of_effect (.of_after (n := 1) [.chanWrite f .ok] ?_)) (hk _ ?_)
    · exact statsGrow_sent
    · rfl
  | error =>
    rw [write_error_eq s f k h]
    exact .inr ((write_refused_goesOn f s).ends (channelFail_stops _).ends)

theorem exhausted_stops (w : TimedWait) (s : State) : Stops s (exhausted w s) := by
  by_cases h : w = .ack
  · rw [h, exhausted_ack]
    exact ⟨rfl, rfl, _, _, .of_after _ statsGrow_error, rfl⟩
  · rw [exhausted_releases s h]
    exact ⟨rfl, rfl, _, _, .of_after _ statsGrow_error, rfl⟩

theorem resend_turn (s : State) : Turn s (resend s) :=
  write_turn _ fun u _ => .inl (.of_effect (.of_after (n := 0) [.timerArm u.timeoutS] statsGrow_retransmission))

theorem retryOrFail_turn (w : TimedWait) (s : State) : Turn s (retryOrFail w s) := by
  have hretry : GoesOn s ({ s with retry := s.retry + 1 } : State).cancelIfArmed := by
    rw [cancelIfArmed_eq_after]
    exact .of_effect (.of_after s.cancelling .refl rfl (countP_cancelling s)) (resultsOf_cancelling s)
  by_cases h : s.maxRetx ≤ s.retry + 1
  · rw [retryOrFail_spent s w h]
    exact .inr (hretry.ends (exhausted_stops w _).ends)
  · rw [retryOrFail_resends s w (by omega)]
    exact hretry.turn (resend_turn _)

/-! ## The outcome rules (43_arq_controller.md R202) -/

theorem goesOn_of_rx (s : State) (r : Receiver) : GoesOn s { s with rx := r } := .of_effect .silent

theorem countError_goesOn (s : State) : GoesOn s s.countError :=
  .of_effect ⟨⟨by simp, rfl, rfl⟩, rfl, statsGrow_error⟩ (acts := [])

theorem acceptUA_turn (s : State) : Turn s (acceptUA s) := by
  unfold acceptUA
  exact turn_result _ (.of_after (n := 0) [.timerCancel] .refl)

theorem acceptSET_turn (s : State) : Turn s (acceptSET s) :=
  write_turn _ fun _ _ => turn_result _ .silent

theorem acceptAck_turn (h : s.phase = .awaitAck) : Turn s (acceptAck s) := by
  unfold acceptAck
  exact turn_earned (.of_after (n := 0) [.timerCancel] .refl) (.inl ⟨h, rfl⟩)

theorem rejectedAck_turn (s : State) : Turn s (rejectedAck s) :=
  (countError_goesOn s).turn (retryOrFail_turn .ack _)

theorem acceptDISC_turn (s : State) : Turn s (acceptDISC s) :=
  write_turn _ fun _ _ => turn_result _ .silent

theorem acceptData_turn (h : s.phase = .awaitData) : Turn s (acceptData s) :=
  write_turn _ fun _ hp => turn_earned .silent (.inr ⟨hp.trans h, _, rfl⟩)

theorem duplicateData_turn (s : State) : Turn s (duplicateData s) :=
  write_turn _ fun u _ => .inl (goesOn_of_rx u _)

theorem mismatchData_turn (s : State) : Turn s (mismatchData s) :=
  (countError_goesOn s).turn (write_turn _ fun u _ => .inl (goesOn_of_rx u _))

theorem acceptEcho_turn (s : State) : Turn s (acceptEcho s) := by
  rw [acceptEcho_eq]
  have hcancel : GoesOn s s.echoed := .of_effect (.of_after _ .refl)
  refine hcancel.turn (write_turn _ fun u _ => ?_)
  exact turn_result _ (.of_after (n := 1) [.chanClose u.answer] .refl)

/-- Whatever rule an outcome has, it is a turn of the wait. -/
theorem onOutcome_turn {o : RxOutcome} (h : onOutcome o s = .next t) : Turn s t := by
  unfold onOutcome at h
  split at h <;> cases h
  · exact .inl (.refl s)
  · exact .inl (.refl s)
  · exact acceptUA_turn s
  · exact acceptSET_turn s
  · exact acceptAck_turn ‹_›
  · exact rejectedAck_turn s
  · exact acceptDISC_turn s
  · exact acceptData_turn ‹_›
  · exact duplicateData_turn s
  · exact mismatchData_turn s
  · exact acceptEcho_turn s

/-! ## Received octets -/

theorem rxByte_turn {b : Octet} (hp : s.phase ≠ .none) (h : rxByte b s = .next t) : Turn s t := by
  rw [rxByte_read s b hp] at h
  exact (goesOn_of_rx _ _).turn (onOutcome_turn h)

/-- Octets after the end of the command are held, and emit nothing. -/
theorem Ends.held (h : Ends s t) (bs : Octets) :
    Ends s { t with env := { t.env with held := t.env.held ++ bs } } := by
  obtain ⟨acts, r, heffect, hresults, hseq⟩ := h.effect
  exact ⟨h.phase, _, r, heffect.trans .silent, by simpa using hresults, hseq⟩

theorem deliver_turn {bs : Octets} (hp : s.phase ≠ .none) (h : deliver bs s = .next t) : Turn s t := by
  induction bs generalizing s with
  | nil => cases h; exact .inl (.refl _)
  | cons b bs ih =>
    rw [deliver_cons] at h
    cases hb : rxByte b s with
    | fault e => rw [hb] at h; cases h
    | refused e => rw [hb] at h; cases h
    | next u =>
      rw [hb] at h
      rcases rxByte_turn hp hb with hon | hend
      · exact hon.turn (ih (hon.phase ▸ hp) h)
      · cases (deliver_held u bs hend.phase).symm.trans h
        exact .inr (hend.held bs)

/-! ## Events that are no command -/

/-- Between commands nothing but a command and a reset moves an engine register that counts (entries 7, 8). -/
structure Still (s t : State) : Prop where
  effect : Effect s t []
  phase : t.phase = s.phase
  seq : t.seq = s.seq

theorem Still.of_env {e : Env} (hactions : e.actions = s.env.actions := by rfl) (hasks : e.asks = s.env.asks := by rfl)
    (hanswers : e.answers = s.env.answers := by rfl) : Still s { s with env := e } :=
  ⟨.silent hactions hasks hanswers, rfl, rfl⟩

/-- What an event that is neither a command nor a reset does: a turn of the wait, or nothing that counts. -/
def Passes (s t : State) : Prop := (s.phase ≠ .none ∧ Turn s t) ∨ (s.phase = .none ∧ Still s t)

theorem Passes.of_still (h : Still s t) (hlen : t.txPlen = s.txPlen := by rfl) : Passes s t := by
  by_cases hp : s.phase = .none
  · exact .inr ⟨hp, h⟩
  · exact .inl ⟨hp, .inl (.of_effect h.effect rfl h.phase h.seq hlen)⟩

theorem deliver_passes {bs : Octets} (h : deliver bs s = .next t) : Passes s t := by
  by_cases hp : s.phase = .none
  · cases (deliver_held s bs hp).symm.trans h
    exact .of_still .of_env
  · exact .inl ⟨hp, deliver_turn hp h⟩

theorem heldDelivered_passes (h : heldDelivered s = .next t) : Passes s t := by
  unfold heldDelivered at h
  split at h
  · cases h; exact .of_still .of_env
  · cases h; exact .of_still .of_env
  · rename_i b bs _ hp
    have htaken : GoesOn s { s with env := { s.env with held := bs } } := .of_effect .silent
    exact .inl ⟨hp, htaken.turn (rxByte_turn hp h)⟩

theorem timerExpiry_passes (h : timerExpiry s = .next t) : Passes s t := by
  cases ha : s.timerArmed with
  | false =>
    cases (timerExpiry_stale s ha).symm.trans h
    exact .of_still .of_env
  | true =>
    cases hw : s.phase.timed with
    | none => simp [timerExpiry, ha, hw] at h
    | some w =>
      cases (timerExpiry_armed s ha hw).symm.trans h
      have hp : s.phase ≠ .none := by rintro hp; rw [hp] at hw; cases hw
      have hexpired : GoesOn s s.expired := .of_effect (acts := [])
        ⟨⟨by simp [State.expired], rfl, rfl⟩, rfl, statsGrow_timeout⟩
      exact .inl ⟨hp, hexpired.turn (retryOrFail_turn w _)⟩

theorem channelErrorEvent_passes (h : channelErrorEvent s = .next t) : Passes s t := by
  unfold channelErrorEvent at h
  split at h <;> cases h
  · exact .of_still .of_env
  · exact .inl ⟨‹_›, .inr (channelFail_stops s).ends⟩

/-! ## Commands -/

/-- A command that is no OPEN completes in its step, or emits nothing yet and starts its wait. -/
def CommandRun (s t : State) : Prop := Stops s t ∨ (Quiet s t ∧ t.phase ≠ .none)

theorem Quiet.run (h : Quiet s t) (h' : CommandRun t u) : CommandRun s u :=
  h'.imp h.stops fun ⟨hquiet, hp⟩ => ⟨h.trans hquiet, hp⟩

theorem startTimedWait_run {phase : Phase} (hp : phase ≠ .none) (f : Octets) (s : State) :
    CommandRun s (startTimedWait phase (s.loadTx f)) := by
  cases h : s.answer with
  | ok =>
    rw [startTimedWait_ok s phase f h]
    exact .inr ⟨.of_effect (.of_after _ statsGrow_sent), hp⟩
  | error =>
    rw [startTimedWait_error s phase f h]
    have hwrite : Quiet s { s with
        txbuf := f ++ s.txbuf.drop f.length, txlen := f.length, env := s.env.after 1 [.chanWrite f .error] } :=
      .of_effect (.of_after _ .refl)
    exact .inl (hwrite.stops (channelFail_stops _))

theorem sendPayload_run (payload : Octets) (s : State) : CommandRun s (sendPayload payload s) := by
  unfold sendPayload
  split
  · exact .inl (stops_result _ .silent)
  · have hsend : Quiet s { s with txPlen := payload.length, retry := 0 } := .of_effect .silent
    exact hsend.run (startTimedWait_run (by decide) _ _)

theorem closeResponder_run (report : Bool) (s : State) : CommandRun s (closeResponder report s) := by
  unfold closeResponder
  split
  · exact .inl (stops_result _ (.of_after (n := 1) [.chanClose s.answer] statsGrow_error))
  · exact .inl (stops_result _ (.of_after (n := 1) [.chanClose s.answer] .refl))

theorem closeLink_run (report : Bool) (s : State) : CommandRun s (closeLink report s) := by
  cases hr : s.role with
  | initiator =>
    rw [closeLink_initiator s report hr]
    have hclose : Quiet s { s with failed := false, session := .closing, retry := 0, report := report } :=
      .of_effect .silent
    exact hclose.run (startTimedWait_run (by decide) _ _)
  | responder =>
    rw [closeLink_responder s report hr]
    exact closeResponder_run report s

theorem command_run {legal : Bool} {body : State → State} (hbody : CommandRun s (body s))
    (h : command legal body s = .next t) : CommandRun s t := by
  obtain ⟨-, rfl⟩ := command_next s h
  split
  · exact hbody
  · exact .inl (stops_result _ .silent)

/-- An OPEN keeps nothing of the configuration; from the configured state on it is a command like the others. -/
def OpenRun (s t : State) : Prop :=
  CommandRun s t ∨ ∃ role n k port speed, CommandRun (configure role n k (s.chanAsk (.chanOpen port speed .ok))) t

theorem openLink_run (role : Role) (port : Octets) (speed n k : Nat) (s : State) :
    OpenRun s (openLink role port speed n k s) := by
  cases h : s.answer with
  | error =>
    rw [openLink_error s role port speed n k h]
    exact .inl (.inl (stops_result _ (.of_after (n := 1) [.chanOpen port speed .error] .refl)))
  | ok =>
    rw [openLink_ok s role port speed n k h]
    refine .inr ⟨role, n, k, port, speed, ?_⟩
    cases role with
    | initiator => exact startTimedWait_run (by decide) _ _
    | responder => exact .inr ⟨.of_effect .silent, by simp [openResponder]⟩

/-- What a command that has a step does. -/
theorem exec_run {i : Instr} (hi : isCommand i = true) (h : exec i s = .next t) :
    CommandRun s t ∨ (∃ role port speed n k, i = .open_ role port speed n k) ∧ OpenRun s t := by
  cases i with
  | open_ role port speed n k =>
    refine .inr ⟨⟨role, port, speed, n, k, rfl⟩, ?_⟩
    obtain ⟨-, rfl⟩ := command_next s (legal := s.openLegal) (body := openLink role port speed n k) h
    split
    · exact openLink_run role port speed n k s
    · exact .inl (.inl (stops_result _ .silent))
  | send payload => exact .inl (command_run (body := sendPayload payload) (sendPayload_run payload s) h)
  | receive =>
    exact .inl (command_run (body := startReceive) (.inr ⟨.of_effect .silent, by simp [startReceive]⟩) h)
  | close report => exact .inl (command_run (body := closeLink report) (closeLink_run report s) h)
  | statistics =>
    exact .inl (command_run (body := fun s => s.result _) (.inl (stops_result _ .silent)) h)
  | _ => cases hi

theorem exec_phase {i : Instr} (hi : isCommand i = true) (h : exec i s = .next t) : s.phase = .none := by
  by_contra hp
  rw [commandWhileBusyHasNoStep i s hi hp] at h
  cases h

/-! ## Every step -/

/-- A step on a word that is a host command. -/
structure CommandStep (s t : State) (e : Event) : Prop where
  event : isCommandEvent s.params e
  phase : s.phase = .none
  run : CommandRun s t ∨ isOpenEvent s.params e ∧ OpenRun s t

/-- What a step that answers a next state did. -/
inductive StepDid (s t : State) (e : Event) : Prop where
  | reset (he : e = .reset) (ht : t = State.resetOf s.params s.env)
  | command (h : CommandStep s t e)
  | other (he : e ≠ .reset) (hc : ¬isCommandEvent s.params e) (h : Passes s t)

theorem runEvent_word_did {w : Words} (h : runEvent (.word w) s = .next t) : StepDid s t (.word w) := by
  cases w with
  | wire bs =>
    refine .other nofun ?_ (deliver_passes ((runEvent_wire bs s).symm.trans h))
    rintro ⟨i, hdec, hi⟩
    rw [not_isCommand_of_encode (encodeOfDecode _ _ _ hdec).1] at hi
    cases hi
  | command code ops =>
    cases hdec : decode s.params (.command code ops) with
    | error e => rw [runEvent_undecoded s hdec] at h; cases h
    | ok i =>
      rw [runEvent_decoded s hdec] at h
      have hi := isCommand_of_decode hdec
      refine .command ⟨⟨i, hdec, hi⟩, exec_phase hi h, (exec_run hi h).imp_right ?_⟩
      rintro ⟨⟨role, port, speed, n, k, rfl⟩, hrun⟩
      exact ⟨⟨role, port, speed, n, k, hdec⟩, hrun⟩

theorem runEvent_did {e : Event} (h : runEvent e s = .next t) : StepDid s t e := by
  cases e with
  | word w => exact runEvent_word_did h
  | rxByte b => exact .other nofun id (deliver_passes ((deliver_singleton s b).trans h))
  | heldDelivered => exact .other nofun id (heldDelivered_passes h)
  | heldLost => cases h; exact .other nofun id (.of_still .of_env)
  | timerExpiry => exact .other nofun id (timerExpiry_passes h)
  | channelError => exact .other nofun id (channelErrorEvent_passes h)
  | reset => cases h; exact .reset rfl rfl

/-! ## The statements -/

theorem isOpenEvent.isCommandEvent {p : Params} {e : Event} (h : isOpenEvent p e) : isCommandEvent p e := by
  cases e with
  | word w =>
    obtain ⟨role, port, speed, n, k, hdec⟩ := h
    exact ⟨_, hdec, rfl⟩
  | _ => exact h

theorem step_did {e : Event} {rest : List Event} (hin : s.env.inputs = e :: rest) (h : step s = .next t) :
    StepDid (s.takeInput rest) t e :=
  runEvent_did ((step_event s hin).symm.trans h)

theorem CommandRun.effect (h : CommandRun s t) : ∃ acts, Effect s t acts ∧
    (resultsOf acts).length = if t.phase = .none then 1 else 0 := by
  rcases h with h | ⟨h, hp⟩
  · obtain ⟨acts, r, heffect, hresults⟩ := h.effect
    exact ⟨acts, heffect, by rw [hresults, if_pos h.phase]; rfl⟩
  · obtain ⟨acts, heffect, hresults⟩ := h.effect
    exact ⟨acts, heffect, by rw [hresults, if_neg hp]; rfl⟩

theorem CommandRun.seq (h : CommandRun s t) : t.seq = s.seq := h.elim (·.seq) (·.1.seq)

theorem Turn.effect (hp : s.phase ≠ .none) (h : Turn s t) : ∃ acts, Effect s t acts ∧
    (resultsOf acts).length = if t.phase = .none then 1 else 0 := by
  rcases h with h | h
  · obtain ⟨acts, heffect, hresults⟩ := h.effect
    exact ⟨acts, heffect, by rw [hresults, if_neg (h.phase ▸ hp)]; rfl⟩
  · obtain ⟨acts, r, heffect, hresults, -⟩ := h.effect
    exact ⟨acts, heffect, by rw [hresults, if_pos h.phase]; rfl⟩

theorem Passes.effect (h : Passes s t) : ∃ acts, Effect s t acts := by
  rcases h with ⟨hp, h⟩ | ⟨-, h⟩
  · obtain ⟨acts, heffect, -⟩ := h.effect hp
    exact ⟨acts, heffect⟩
  · exact ⟨[], h.effect⟩

theorem OpenRun.emits (h : OpenRun s t) : t.params = s.params ∧ ∃ acts, Emits s t acts ∧
    (resultsOf acts).length = if t.phase = .none then 1 else 0 := by
  rcases h with h | ⟨role, n, k, port, speed, h⟩ <;> obtain ⟨acts, heffect, hresults⟩ := h.effect
  · exact ⟨heffect.params, acts, heffect.emits, hresults⟩
  · have hopen : Emits s (configure role n k (s.chanAsk (.chanOpen port speed .ok))) [.chanOpen port speed .ok] :=
      .of_after (n := 1) rfl rfl
    exact ⟨heffect.params, _, hopen.trans heffect.emits, hresults⟩

theorem CommandStep.emits {e : Event} (h : CommandStep s t e) : t.params = s.params ∧ ∃ acts, Emits s t acts ∧
    (resultsOf acts).length = if t.phase = .none then 1 else 0 := by
  rcases h.run with h | ⟨-, h⟩
  · obtain ⟨acts, heffect, hresults⟩ := h.effect
    exact ⟨heffect.params, acts, heffect.emits, hresults⟩
  · exact h.emits

/-- Away from an OPEN and a reset, a step has an `Effect`. -/
theorem StepDid.effect {e : Event} (h : StepDid s t e) (hr : e ≠ .reset) (ho : ¬isOpenEvent s.params e) :
    ∃ acts, Effect s t acts := by
  cases h with
  | reset he => exact absurd he hr
  | command h =>
    obtain ⟨acts, heffect, -⟩ := (h.run.resolve_right fun h => ho h.1).effect
    exact ⟨acts, heffect⟩
  | other _ _ h => exact h.effect

theorem StepDid.emits {e : Event} (h : StepDid s t e) : t.params = s.params ∧ ∃ acts, Emits s t acts := by
  cases h with
  | reset _ ht =>
    subst ht
    exact ⟨rfl, [], by simp [State.resetOf], rfl, rfl⟩
  | command h =>
    obtain ⟨hparams, acts, hemits, -⟩ := h.emits
    exact ⟨hparams, acts, hemits⟩
  | other _ _ h =>
    obtain ⟨acts, heffect⟩ := h.effect
    exact ⟨heffect.params, acts, heffect.emits⟩

/-- Settles O56: every event emits, reset nothing. -/
theorem actionsAreAppended : Obligations.ActionsAreAppended := by
  intro s t h
  cases hin : s.env.inputs with
  | nil =>
    cases (step_idle s hin).symm.trans h
    exact ⟨[], by simp, rfl, rfl⟩
  | cons e rest =>
    obtain ⟨-, acts, hemits⟩ := (step_did hin h).emits
    exact ⟨acts, hemits.actions, hemits.asks, hemits.answers⟩

/-- Settles O54: an `Effect` keeps the configuration. -/
theorem configurationWrittenByOpenOnly : Obligations.ConfigurationWrittenByOpenOnly := by
  intro s t h
  refine ⟨?_, fun e rest hin hr ho => ?_⟩
  · cases hin : s.env.inputs with
    | nil => cases (step_idle s hin).symm.trans h; rfl
    | cons e rest => exact (step_did hin h).emits.1
  · obtain ⟨acts, heffect⟩ := (step_did hin h).effect hr ho
    have hkeeps := heffect.keeps
    simp only [State.configuration, Prod.mk.injEq] at hkeeps
    exact hkeeps.2

/-- Counters within the width of a counter. -/
def Stats.below (a : Stats) (n : Nat) : Prop :=
  a.framesSent < n ∧ a.retransmissions < n ∧ a.timeouts < n ∧ a.errors < n

theorem StatsGrow.below {p : Params} {a b : Stats} {w : Nat} (h : StatsGrow p a b) (hw : p.statW = some w)
    (ha : a.below (2 ^ w)) : b.below (2 ^ w) :=
  ⟨h.framesSent.bound w hw ha.1, h.retransmissions.bound w hw ha.2.1, h.timeouts.bound w hw ha.2.2.1,
    h.errors.bound w hw ha.2.2.2⟩

theorem zero_below (w : Nat) :
    Stats.below { framesSent := 0, retransmissions := 0, timeouts := 0, errors := 0 } (2 ^ w) :=
  ⟨Nat.two_pow_pos w, Nat.two_pow_pos w, Nat.two_pow_pos w, Nat.two_pow_pos w⟩

theorem CommandRun.below {w : Nat} (h : CommandRun s t) (hw : s.params.statW = some w)
    (hs : s.stats.below (2 ^ w)) : t.stats.below (2 ^ w) := by
  obtain ⟨acts, heffect, -⟩ := h.effect
  exact heffect.stats.below hw hs

theorem StepDid.below {e : Event} {w : Nat} (h : StepDid s t e) (hw : s.params.statW = some w)
    (hs : s.stats.below (2 ^ w)) : t.stats.below (2 ^ w) := by
  cases h with
  | reset _ ht => subst ht; exact zero_below w
  | command h =>
    rcases h.run with h | ⟨-, h | ⟨role, n, k, port, speed, h⟩⟩
    · exact h.below hw hs
    · exact h.below hw hs
    · exact h.below hw (zero_below w)
  | other _ _ h =>
    obtain ⟨acts, heffect⟩ := h.effect
    exact heffect.stats.below hw hs

/-- Settles O55: an `Effect` moves the counters by `bump`; an OPEN and a reset start them at 0. -/
theorem countersNeverFall : Obligations.CountersNeverFall := by
  intro s t e rest hin h
  have hdid := step_did hin h
  refine ⟨fun hr ho => ?_, fun w hw h1 h2 h3 h4 => hdid.below hw ⟨h1, h2, h3, h4⟩⟩
  obtain ⟨acts, heffect⟩ := hdid.effect hr ho
  have hstats := heffect.stats
  exact ⟨hstats.framesSent.le, hstats.retransmissions.le, hstats.timeouts.le, hstats.errors.le⟩

/-- Settles O57. -/
theorem oneResultPerCommand : Obligations.OneResultPerCommand := by
  intro s t e rest hin h
  cases step_did hin h with
  | reset he ht =>
    subst ht
    refine ⟨[], by simp [State.resetOf, State.takeInput], fun _ => rfl, fun hr => absurd he hr, fun _ hc => ?_,
      fun _ _ => rfl⟩
    rw [he] at hc
    exact hc.elim
  | command h =>
    obtain ⟨-, acts, hemits, hresults⟩ := h.emits
    refine ⟨acts, hemits.actions, fun he => ?_, fun _ hp => absurd h.phase hp, fun _ _ => hresults,
      fun _ hc => absurd h.event hc⟩
    have hevent := h.event
    rw [he] at hevent
    exact hevent.elim
  | other he hc h =>
    rcases h with ⟨hp, h⟩ | ⟨hp, h⟩
    · obtain ⟨acts, heffect, hresults⟩ := h.effect hp
      exact ⟨acts, heffect.emits.actions, fun hr => absurd hr he, fun _ _ => hresults, fun hn => absurd hn hp,
        fun hn => absurd hn hp⟩
    · exact ⟨[], h.effect.emits.actions, fun _ => rfl, fun _ hn => absurd hp hn, fun _ hce => absurd hce hc,
        fun _ _ => rfl⟩

/-- Settles O53: only a command's end that earns it changes `SEQ`. -/
theorem sequenceBitChangesOnSuccessOnly : Obligations.SequenceBitChangesOnSuccessOnly := by
  intro s t e rest hin h hseq hr ho
  cases step_did hin h with
  | reset he => exact absurd he hr
  | command h => exact absurd (h.run.resolve_right fun h => ho h.1).seq hseq
  | other _ _ h =>
    rcases h with ⟨hp, h | h⟩ | ⟨-, h⟩
    · exact absurd h.seq hseq
    · obtain ⟨acts, r, heffect, hresults, hearned⟩ := h.effect
      refine ⟨acts, heffect.emits.actions, ?_⟩
      rcases hearned.resolve_left hseq with ⟨hp, rfl⟩ | ⟨hp, payload, rfl⟩
      · exact .inl ⟨hp, hresults⟩
      · exact .inr ⟨hp, payload, hresults⟩
    · exact absurd h.seq hseq

end

end Sys2Proof.Machine
end

section
/-! PROOFS. The statements about two engines joined by a line (43_arq_controller.md sections 3 to 5): the equations of
single commands and frames, composed. -/

namespace Sys2Proof.Machine

theorem txFrame_of_loaded {s : State} {f cells : Octets} (hb : s.txbuf = f ++ cells) (hl : s.txlen = f.length) :
    s.txFrame = f := by
  rw [State.txFrame, hb, hl, List.take_left]

/-- A command keeps the invariant. -/
theorem Inv.exec {s t : State} {i : Instr} (h : Inv s) (hi : isCommand i = true)
    (hexec : Machine.exec i s = .next t) : Inv t := by
  obtain ⟨u, hu, hinv⟩ := exec_command_safe h (exec_phase hi hexec) hi
  cases hu.symm.trans hexec
  exact hinv

/-- A run of octets keeps the invariant. -/
theorem Inv.deliver {s t : State} {bs : Octets} (h : Inv s) (hbs : Machine.deliver bs s = .next t) : Inv t := by
  obtain ⟨u, hu, hinv⟩ := deliver_safe h bs
  cases hu.symm.trans hbs
  exact hinv

/-- Settles O58: OPEN, the arriving SET and the arriving UA, by their equations. -/
theorem handshakeOpensBothEnds : Obligations.HandshakeOpensBothEnds := by
  intro i r port speed n k hinvi hinvr hparams hwf hphase hsession hopen hwrite hrphase hridle hranswer
  have hi1 := openInitiatorSendsSet i port speed n k hphase hsession hopen hwrite
  have hr1 := (setAnsweredByUa r hinvr (hparams ▸ hwf) hrphase (by simp [hridle])).1 hranswer
  have hi2 := uaCompletesOpen _ (hinvi.exec rfl hi1) hwf rfl nofun
  exact ⟨_, _, _, hi1, (congrArg (deliver · r) (txFrame_of_loaded rfl rfl)).trans hr1, hi2,
    rfl, rfl, rfl, rfl, rfl, rfl, rfl, rfl⟩

/-- Settles O59: SEND, the arriving information frame and the arriving acknowledgement, by their equations. -/
theorem sentPayloadIsDelivered : Obligations.SentPayloadIsDelivered := by
  intro i r payload hinvi hinvr hparams hwf hphase hsession hrole hfailed hrphase hridle hseq hfits hianswer hranswer
  have hi1 := sendWritesFrameAndWaits i payload hphase hsession hrole hfailed hfits hianswer
  have hframe : infoFrame Config.A_TX (i.params.cI i.seq) payload =
      infoFrame Config.A_TX (r.params.cI r.seq) payload := by
    rw [hparams, hseq]
  have hack : ctrl Config.A_TX (r.params.ackCode r.seq) = ctrl Config.A_TX (i.params.ackCode i.seq) := by
    rw [hparams, hseq]
  have hr1 := deliver_expected hinvr (hparams ▸ hwf) hrphase (by simp [hridle]) (by simp [hridle]) (hparams ▸ hfits)
  rw [acceptData_ok (by exact hranswer), gotInfo_value] at hr1
  have hi2 := exec_ack (hinvi.exec rfl hi1) hwf rfl nofun
  rw [acceptAck_eq] at hi2
  exact ⟨_, _, _, _, hi1, (congrArg (deliver · r) ((txFrame_of_loaded rfl rfl).trans hframe)).trans hr1,
    (congrArg (deliver · _) hack).trans hi2, rfl, rfl, rfl, rfl, rfl, rfl⟩

/-- Settles O60: after the next RECEIVE the same frame has the other bit, so it is acknowledged and dropped. -/
theorem repeatedFrameDeliveredOnce : Obligations.RepeatedFrameDeliveredOnce := by
  intro r payload hinv hwf hp hidle hfits h0 h1 f ack
  have hr1 := deliver_expected hinv hwf hp (by simp [hidle]) (by simp [hidle]) hfits
  rw [acceptData_ok (by exact h0), gotInfo_value] at hr1
  have hrole : r.role = .responder := by have := hinv.role; rw [hp] at this; exact beq_iff_eq.mp this
  obtain ⟨r1, hr1, hphase1, hsession1, hrole1, hfailed1, hseq1, hparams1, hanswer1, hactions1⟩ : ∃ r1 : State,
      deliver f r = .next r1 ∧ r1.phase = .none ∧ r1.session = .open_ ∧ r1.role = .responder ∧ r1.failed = false ∧
      r1.seq = (!r.seq) ∧ r1.params = r.params ∧ r1.answer = .ok ∧
      r1.env.actions = r.env.actions ++ [.chanWrite ack .ok, .result (.ok (.payload payload))] :=
    ⟨_, hr1, rfl, hinv.session_of hp fun _ => beq_iff_eq.mp, hrole, hinv.failed_false (by simp [hp]),
      rfl, rfl, h1, rfl⟩
  have hr2 := receiveStartsWait r1 hphase1 hsession1 hrole1 hfailed1
  have hr3 := deliver_duplicate (payload := payload) ((hinv.deliver hr1).exec rfl hr2) (hparams1 ▸ hwf) rfl
    nofun nofun (by exact hparams1 ▸ hfits)
  rw [duplicateData_ok (by exact hanswer1)] at hr3
  have hframe : infoFrame Config.A_TX (r1.params.cI (!r1.seq)) payload = f := by
    rw [hparams1, hseq1, Bool.not_not]; rfl
  have hack : ctrl Config.A_TX (r1.params.ackCode (!r1.seq)) = ack := by rw [hparams1, hseq1, Bool.not_not]
  exact ⟨r1, _, _, hr1, hr2, (congrArg (deliver · _) hframe.symm).trans hr3, hactions1,
    congrArg (fun a => r1.env.actions ++ [.chanWrite a .ok]) hack, hseq1, rfl⟩

end Sys2Proof.Machine
end
